-- ==== Sys2Proof/Word.lean ====
section
/-! DEFINITION. The words of the block: 8-bit data and instruction words, 4-bit opcode fields and 2-bit
register selectors (00_scope.md R6). Bit 7 of a word is its most significant bit (R8); values are unsigned and
`+`, `-` wrap modulo 2^8 (R9), as `BitVec` arithmetic does. -/

namespace Sys2Proof

/-- A data word or an instruction word: `W` = 8 bits (00_scope.md R6). -/
abbrev Word := BitVec 8

/-- The value of an opcode field: `OPW` = 4 bits (00_scope.md R6). -/
abbrev OpcodeBits := BitVec 4

/-- A register selector as bits: `SELW` = 2 bits (00_scope.md R6). -/
abbrev SelBits := BitVec 2

end Sys2Proof
end

