-- ==== Sys2Proof/Syntax.lean ====
section
/-! DEFINITION. The instructions as syntax: register names, the four instructions, an assembler line, and the
opcode assignment as data (00_scope.md R7; 10_state.md R26; 30_encoding.md R73, R83). -/

namespace Sys2Proof

/-- A general register, R0..R3 (10_state.md R21, R26). Each of the four is legal as `rx` and as `ry`
(30_encoding.md R75). -/
inductive RegId where
  | r0 | r1 | r2 | r3
  deriving DecidableEq, Repr

/-- The instruction set koreore-4: one constructor per row of the opcode table (00_scope.md R2;
30_encoding.md R73). -/
inductive Instr where
  /-- `mv rX, rY`: general register to general register (41_move.md R150). -/
  | mv (rx ry : RegId)
  /-- `mvi rX, imm`: `din` of the T1 tick to a general register; the data is no field of the word
  (41_move.md R153; 30_encoding.md R79). -/
  | mvi (rx : RegId)
  /-- `add rX, rY` (42_arith.md R170). -/
  | add (rx ry : RegId)
  /-- `sub rX, rY` (42_arith.md R173). -/
  | sub (rx ry : RegId)
  deriving DecidableEq, Repr

/-- The value of an instruction's first register field (30_encoding.md R71). -/
def Instr.rx : Instr → RegId
  | .mv rx _ => rx
  | .mvi rx => rx
  | .add rx _ => rx
  | .sub rx _ => rx

/-- The value of an instruction's second register field; for Mvi the value its canonical word carries in
the two ignored bits (30_encoding.md R71, R78). -/
def Instr.ryOrCanonical : Instr → RegId
  | .mv _ ry => ry
  | .mvi _ => .r0
  | .add _ ry => ry
  | .sub _ ry => ry

/-- An opcode assignment: the parameter `OPCODE` of 00_scope.md R7. -/
structure Opcodes where
  mv : OpcodeBits
  mvi : OpcodeBits
  add : OpcodeBits
  sub : OpcodeBits
  deriving DecidableEq, Repr

/-- The opcode an assignment gives an instruction. -/
def Opcodes.of (oc : Opcodes) : Instr → OpcodeBits
  | .mv _ _ => oc.mv
  | .mvi _ => oc.mvi
  | .add _ _ => oc.add
  | .sub _ _ => oc.sub

/-- One line of assembler: an instruction and, for `mvi` alone, the data byte that the environment puts on
`din` in its T1 tick (30_encoding.md R83). `AsmLine.wellFormed` says which lines are legal. -/
structure AsmLine where
  instr : Instr
  data : Option Word
  deriving DecidableEq, Repr

/-- A register's assembler name (30_encoding.md R83). -/
def RegId.name : RegId → String
  | .r0 => "r0"
  | .r1 => "r1"
  | .r2 => "r2"
  | .r3 => "r3"

/-- A line's assembler text, `imm` in decimal (30_encoding.md R83). -/
def AsmLine.text (l : AsmLine) : String :=
  match l.instr with
  | .mv rx ry => "mv " ++ rx.name ++ ", " ++ ry.name
  | .mvi rx => "mvi " ++ rx.name ++ ", " ++ toString (l.data.getD 0).toNat
  | .add rx ry => "add " ++ rx.name ++ ", " ++ ry.name
  | .sub rx ry => "sub " ++ rx.name ++ ", " ++ ry.name

end Sys2Proof
end

