-- ==== Sys2Proof/WellFormed.lean ====
section
/-! DEFINITION. The checks on syntax. An `Instr` needs none: its operands are registers by type, every register
is legal in every field and `rx` may equal `ry` (30_encoding.md R75). What can be ill formed is an opcode
assignment (00_scope.md R7) and an assembler line (30_encoding.md R79, R83). -/

namespace Sys2Proof

/-- The four opcodes of an assignment differ (00_scope.md R7: "provided the four values are distinct"). -/
def Opcodes.distinct (oc : Opcodes) : Bool :=
  decide (oc.mv ≠ oc.mvi ∧ oc.mv ≠ oc.add ∧ oc.mv ≠ oc.sub ∧
    oc.mvi ≠ oc.add ∧ oc.mvi ≠ oc.sub ∧ oc.add ≠ oc.sub)

/-- A line carries a data byte exactly when its instruction is `mvi` (30_encoding.md R79, R83;
70_reset_and_hazards.md R233, duty 4). -/
def AsmLine.wellFormed (l : AsmLine) : Bool :=
  match l.instr with
  | .mv _ _ => l.data.isNone
  | .mvi _ => l.data.isSome
  | .add _ _ => l.data.isNone
  | .sub _ _ => l.data.isNone

end Sys2Proof
end

