-- ==== Sys2Proof/Decode.lean ====
section
/-! DEFINITION. Decode and encode of the one 8-bit instruction format (30_encoding.md R70 to R80). Field positions
are decision D1, opcode values D2, Mvi's ignored bits D3 and the selector code D4 of 92_eei_decisions.md
(notes/assumptions/7.md). -/

namespace Sys2Proof

/-- Why a word is no instruction (30_encoding.md R77). -/
inductive DecodeError where
  /-- No variant's pattern matches the word. Raised by `decodeWith`; safe: the spec names it and the tick that
  decodes the word halts. -/
  | ambiguousOrUndecodable (word : Word)
  deriving DecidableEq, Repr

/-- The register a selector names: 00 R0, 01 R1, 10 R2, 11 R3 (10_state.md R26). -/
def RegId.ofSel (v : SelBits) : RegId :=
  match v.toNat with
  | 0 => .r0
  | 1 => .r1
  | 2 => .r2
  | _ => .r3

/-- The selector that names a register (10_state.md R26). -/
def RegId.toSel : RegId → SelBits
  | .r0 => 0b00#2
  | .r1 => 0b01#2
  | .r2 => 0b10#2
  | .r3 => 0b11#2

/-- Field `op`, bits [7:4] (30_encoding.md R71). -/
def opField (w : Word) : OpcodeBits := w.extractLsb' 4 4

/-- Field `rx`, bits [3:2], as a register (30_encoding.md R71, R75). -/
def rxField (w : Word) : RegId := RegId.ofSel (w.extractLsb' 2 2)

/-- Field `ry`, bits [1:0], as a register (30_encoding.md R71, R75). -/
def ryField (w : Word) : RegId := RegId.ofSel (w.extractLsb' 0 2)

/-- A word put together from its three fields, `op` in the high bits (30_encoding.md R71). -/
def packWord (op : OpcodeBits) (x y : SelBits) : Word := op ++ x ++ y

/-- The opcode values of the spec: Mv 0000, Mvi 0001, Add 0010, Sub 0011 (30_encoding.md R72). -/
def opcodes : Opcodes := ⟨0b0000#4, 0b0001#4, 0b0010#4, 0b0011#4⟩

/-- `decode` under any opcode assignment: the first variant, in declaration order, whose pattern matches; Mvi's
bits [1:0] match either value (30_encoding.md R73, R74, R76; 00_scope.md R7). -/
def decodeWith (oc : Opcodes) (w : Word) : Except DecodeError Instr :=
  if opField w = oc.mv then .ok (.mv (rxField w) (ryField w))
  else if opField w = oc.mvi then .ok (.mvi (rxField w))
  else if opField w = oc.add then .ok (.add (rxField w) (ryField w))
  else if opField w = oc.sub then .ok (.sub (rxField w) (ryField w))
  else .error (.ambiguousOrUndecodable w)

/-- `decode(w)` of 30_encoding.md R76: total on the 256 words, the same in every Status (R82). -/
def decode (w : Word) : Except DecodeError Instr := decodeWith opcodes w

/-- A word the decode accepts (30_encoding.md R77: the other 192 words are undecodable). -/
def decodable (w : Word) : Bool :=
  match decode w with
  | .ok _ => true
  | .error _ => false

/-- `encode` under any opcode assignment: the pattern with its fields filled in, Mvi's ignored bits `00`
(30_encoding.md R78). -/
def encodeWith (oc : Opcodes) (i : Instr) : Word :=
  packWord (oc.of i) i.rx.toSel i.ryOrCanonical.toSel

/-- `encode(v)` of 30_encoding.md R78. -/
def encode (i : Instr) : Word := encodeWith opcodes i

/-- The words a line of assembler puts on `din`: the instruction's word, then for `mvi` its data byte
(30_encoding.md R83). -/
def AsmLine.words (l : AsmLine) : List Word := encode l.instr :: l.data.toList

/-- The instruction this decoder reads from an instruction whose bits are `w`, numbered as the opcode table
numbers them: one 8-bit word, bits above `nbits` zero. -/
def decodeTableWord (nbits w : Nat) : Option Instr :=
  (decode (BitVec.ofNat 8 (w % 2 ^ nbits))).toOption

end Sys2Proof
end

