-- ==== Sys2Proof/Config.lean ====
section
/-! DEFINITION. The free values: what the spec leaves open in every tick. Each is a constant without a body,
applied to the model's count of ticks taken, so nothing can be proved of its value
(notes/assumptions/2.md and 4.md). -/

namespace Sys2Proof

/-- The environment's `run` bit in a tick for which `State.pending` holds no input: any bit
(60_exceptions.md R216; 20_memory.md R51). -/
opaque Config.freeRun : Nat → Bool

/-- The environment's `din` word in a tick for which `State.pending` holds no input: any word
(60_exceptions.md R216; 20_memory.md R51). -/
opaque Config.freeDin : Nat → Word

/-- The don't-care oracle `DC` at its first use: the bus word drawn under selector `Dontcare`
(00_scope.md R7; 40_tick_and_control.md R119, `any8()`). -/
opaque Config.dontcareBus : Nat → Word

/-- The don't-care oracle `DC` at its second use: the ALU mode drawn where a row leaves `mode` open
(00_scope.md R7; 40_tick_and_control.md R119, `any1()`). -/
opaque Config.dontcareMode : Nat → Bool

end Sys2Proof
end

