-- ==== Sys2Proof/Machine/State.lean ====
section
/-! DEFINITION. The state of the block as plain data (10_state.md R20 to R36), the halt mark (R34), the inputs the
environment holds ready and the output it reads (60_exceptions.md R216), the reasons a step can stop, and the
initial state (70_reset_and_hazards.md R230). -/

namespace Sys2Proof.Machine

/-- The control unit's microcycle (10_state.md R25, R37). -/
inductive Status where
  | t0 | t1 | t2 | t3
  deriving DecidableEq, Repr

/-- The three kinds of halt (60_exceptions.md R200). -/
inductive HaltKind where
  /-- IR's pre-tick word matches no pattern. -/
  | ambiguousOrUndecodable
  /-- The tick's signal vector asserts more than one of `r0_in`..`r3_in`. -/
  | multipleLatchEnableAsserted
  /-- (T2 or T3, Mv or Mvi): a pair with no row. -/
  | unreachableDecodeRow
  deriving DecidableEq, Repr

/-- What a halt records beside its kind (60_exceptions.md R202). -/
structure HaltInfo where
  /-- IR's pre-tick value. -/
  word : Word
  /-- The pre-tick Status. -/
  status : Status
  deriving DecidableEq, Repr

/-- The halt mark (10_state.md R34). -/
inductive HaltMark where
  | running
  | halted (kind : HaltKind) (info : HaltInfo)
  deriving DecidableEq, Repr

/-- One tick's inputs, constant within the tick (20_memory.md R51, R52). -/
structure Input where
  run : Bool
  din : Word
  deriving DecidableEq, Repr

/-- The general registers R0..R3 (10_state.md R21). -/
structure Regs where
  r0 : Word
  r1 : Word
  r2 : Word
  r3 : Word
  deriving DecidableEq, Repr

/-- The parameter `INIT`: the registers' values at simulation start (00_scope.md R7; 10_state.md R36). -/
structure Init where
  regs : Regs
  a : Word
  g : Word
  ir : Word
  deriving DecidableEq, Repr

/-- The machine. The fields down to `status` are the persistent state of 10_state.md R20; `halt` is the halt mark
of R34; the last three are the model's own bookkeeping of the environment. -/
structure State where
  /-- R0..R3 (10_state.md R21). -/
  regs : Regs
  /-- The operand buffer A (10_state.md R22). -/
  a : Word
  /-- The ALU-result buffer G (10_state.md R23). -/
  g : Word
  /-- The instruction register IR (10_state.md R24). -/
  ir : Word
  /-- The current microcycle (10_state.md R25). -/
  status : Status
  /-- The halt mark (10_state.md R34). -/
  halt : HaltMark
  /-- The `done` the last tick emitted, for the environment to read (40_tick_and_control.md R115); `none` before
  the first tick and after a halting tick (60_exceptions.md R201). No tick reads it (notes/assumptions/3.md). -/
  output : Option Bool
  /-- The inputs the environment has settled for the coming ticks, oldest first; ticks after them take free values
  (notes/assumptions/2.md). -/
  pending : List Input
  /-- How many ticks have been taken; only the free values of Config are applied to it (notes/assumptions/4.md). -/
  tick : Nat
  deriving DecidableEq, Repr

/-- Why a step stops with no next state. -/
inductive Fault where
  /-- A tick asked of a halted block. Raised by `runTick` alone; safe: the spec defines no such tick
  (10_state.md R34; 60_exceptions.md R208; 93_implementation_defined.md U7, "stuck"). -/
  | tickAfterHalt (kind : HaltKind) (info : HaltInfo)
  deriving DecidableEq, Repr

/-- Why an instruction has no meaning. -/
inductive Refusal where
  /-- An instruction without a meaning. Raised by an arm of `exec` only, and no arm raises it: every instruction
  has its meaning; safe. -/
  | notModelled (mnemonic : String)
  deriving DecidableEq, Repr

/-- The answer of a tick. -/
abbrev Result := Host.Outcome State Fault Refusal

/-- The initial state for a value of `INIT` and the inputs the environment starts with: Status T0, not halted
(10_state.md R36; 70_reset_and_hazards.md R230). -/
def State.start (init : Init) (inputs : List Input) : State where
  regs := init.regs
  a := init.a
  g := init.g
  ir := init.ir
  status := .t0
  halt := .running
  output := none
  pending := inputs
  tick := 0

/-- The all-zero `INIT`, "one admissible instance" (10_state.md R36). -/
def Init.zero : Init := ⟨⟨0, 0, 0, 0⟩, 0, 0, 0⟩

/-- The machine right after simulation start. DESIGN CHOICE: `INIT` is all zero (notes/assumptions/1.md). -/
def State.reset : State := State.start Init.zero []

end Sys2Proof.Machine
end

