-- ==== Sys2Proof/Machine/Flags.lean ====
section
/-! DEFINITION. The ALU and its mode signal. The block has NO flags: the ALU gives an 8-bit word and no carry,
borrow, overflow or zero indication (10_state.md R31; 40_tick_and_control.md R107). -/

namespace Sys2Proof.Machine

/-- The control signal `mode`: 0 add, 1 subtract, or don't-care (40_tick_and_control.md R110). -/
inductive ModeSignal where
  | add
  | subtract
  | dontcare
  deriving DecidableEq, Repr

/-- The mode bit that reaches the ALU; `draw` is what a don't-care mode carries
(40_tick_and_control.md R101, R119). -/
def ModeSignal.resolve (draw : Bool) : ModeSignal → Bool
  | .add => false
  | .subtract => true
  | .dontcare => draw

/-- `ALU(mode, a, b)`: add where `mode` is false, subtract where it is true, modulo 2^8
(40_tick_and_control.md R107). -/
def alu (mode : Bool) (a b : Word) : Word := if mode then a - b else a + b

end Sys2Proof.Machine
end

