-- ==== Sys2Proof/Machine/Operands.lean ====
section
/-! DEFINITION. The operand forms: a general register, the tick's external input, and the bus multiplexer over
its six sources (10_state.md R21; 20_memory.md R51; 40_tick_and_control.md R105). -/

namespace Sys2Proof.Machine

/-- Reads one of R0..R3. -/
def Regs.get (r : Regs) : RegId → Word
  | .r0 => r.r0
  | .r1 => r.r1
  | .r2 => r.r2
  | .r3 => r.r3

/-- Replaces one of R0..R3. -/
def Regs.set (r : Regs) (k : RegId) (v : Word) : Regs :=
  match k with
  | .r0 => { r with r0 := v }
  | .r1 => { r with r1 := v }
  | .r2 => { r with r2 := v }
  | .r3 => { r with r3 := v }

/-- The general register `k` of a state; none is hardwired, aliased or banked (10_state.md R21). -/
def State.reg (s : State) (k : RegId) : Word := s.regs.get k

/-- A state with general register `k` replaced. -/
def State.setReg (s : State) (k : RegId) (v : Word) : State := { s with regs := s.regs.set k v }

/-- The inputs of the `n`-th coming tick: what the environment holds ready, else free values
(20_memory.md R51; notes/assumptions/2.md). -/
def State.inputAt (s : State) (n : Nat) : Input :=
  s.pending.getD n ⟨Config.freeRun (s.tick + n), Config.freeDin (s.tick + n)⟩

/-- The inputs of the tick about to be taken. -/
def State.input (s : State) : Input := s.inputAt 0

/-- A state whose coming tick has the inputs `inp`, later inputs as they were settled. -/
def State.withInput (s : State) (inp : Input) : State := { s with pending := inp :: s.pending.tail }

/-- The bus selector, a sum type (30_encoding.md R85). -/
inductive BusSel where
  | reg (k : RegId)
  | din
  | g
  | dontcare
  deriving DecidableEq, Repr

/-- The bus multiplexer, a function of the selector, the pre-tick state and the tick's input; `draw` is what a
don't-care bus carries (40_tick_and_control.md R105, R106, R119). -/
def busWord (draw : Word) (sel : BusSel) (s : State) : Word :=
  match sel with
  | .reg k => s.reg k
  | .din => s.input.din
  | .g => s.g
  | .dontcare => draw

end Sys2Proof.Machine
end

