-- ==== Sys2Proof/Machine/Control.lean ====
section
/-! DEFINITION. The control unit: the signal vector, the row that every instruction has at T0, and the transition
function of Status (40_tick_and_control.md R110, R111, R112, R113, R116). -/

namespace Sys2Proof.Machine

/-- The control-signal vector (40_tick_and_control.md R110). -/
structure Signals where
  busSel : BusSel
  r0In : Bool
  r1In : Bool
  r2In : Bool
  r3In : Bool
  aIn : Bool
  gIn : Bool
  irIn : Bool
  mode : ModeSignal
  done : Bool
  deriving DecidableEq, Repr

/-- A row that names its bus source and nothing else: what a row does not name is deasserted, and its mode is
don't-care (40_tick_and_control.md R111). -/
def Signals.onBus (sel : BusSel) : Signals where
  busSel := sel
  r0In := false
  r1In := false
  r2In := false
  r3In := false
  aIn := false
  gIn := false
  irIn := false
  mode := .dontcare
  done := false

/-- "latch-enable = rx": the enable of register `k` asserted, the other three deasserted
(40_tick_and_control.md R110). -/
def Signals.latching (row : Signals) (k : RegId) : Signals :=
  { row with
    r0In := decide (k = .r0), r1In := decide (k = .r1), r2In := decide (k = .r2), r3In := decide (k = .r3) }

/-- The latch-enable of general register `k`. -/
def Signals.rIn (row : Signals) : RegId → Bool
  | .r0 => row.r0In
  | .r1 => row.r1In
  | .r2 => row.r2In
  | .r3 => row.r3In

/-- How many of `r0_in`..`r3_in` are asserted. -/
def Signals.latchCount (row : Signals) : Nat :=
  row.r0In.toNat + row.r1In.toNat + row.r2In.toNat + row.r3In.toNat

/-- At most one of `r0_in`..`r3_in` is asserted (40_tick_and_control.md R116). -/
def Signals.oneHot (row : Signals) : Bool := decide (row.latchCount ≤ 1)

/-- The T0 row, the same for every instruction: the fetch cycle (40_tick_and_control.md R112). -/
def fetchRow : Signals := { Signals.onBus .dontcare with irIn := true }

/-- `NEXT(Status, run, done)` (40_tick_and_control.md R113). -/
def nextStatus (st : Status) (run done : Bool) : Status :=
  match st with
  | .t0 => if run then .t1 else .t0
  | .t1 => if done then .t0 else .t2
  | .t2 => if done then .t0 else .t3
  | .t3 => if done then .t0 else .t3

end Sys2Proof.Machine
end

