-- ==== Sys2Proof/Machine/Ops.lean ====
section
/-! DEFINITION. The tick that every instruction shares: settle, commit, the halt that every error takes, and the
tick from IR to the next state (40_tick_and_control.md R100 to R104; 60_exceptions.md R200 to R202). -/

namespace Sys2Proof.Machine

/-- What the settle phase computes from the pre-tick state (40_tick_and_control.md R101). -/
structure Settled where
  bus : Word
  aluOut : Word
  done : Bool
  deriving DecidableEq, Repr

/-- The settle phase of a row, for given don't-care draws: the bus, then the ALU on A and the bus
(40_tick_and_control.md R101, R105, R107, R108). -/
def settleWith (drawBus : Word) (drawMode : Bool) (row : Signals) (s : State) : Settled :=
  let bus := busWord drawBus row.busSel s
  { bus := bus, aluOut := alu (row.mode.resolve drawMode) s.a bus, done := row.done }

/-- The settle phase with the draws of the oracle `DC` for this tick (40_tick_and_control.md R119). -/
def settle (row : Signals) (s : State) : Settled :=
  settleWith (Config.dontcareBus s.tick) (Config.dontcareMode s.tick) row s

/-- The register law: the proposed input if enabled, else the current value (40_tick_and_control.md R104). -/
def latch (enable : Bool) (proposed current : Word) : Word := if enable then proposed else current

/-- The commit phase: every register and Status at once, each from pre-tick values; `done` goes out and the
environment moves on to its next input (40_tick_and_control.md R102, R103, R113). IR latches `din`
(92_eei_decisions.md D5; notes/assumptions/8.md). -/
def commit (row : Signals) (v : Settled) (s : State) : State :=
  { s with
    regs := ⟨latch row.r0In v.bus s.regs.r0, latch row.r1In v.bus s.regs.r1,
             latch row.r2In v.bus s.regs.r2, latch row.r3In v.bus s.regs.r3⟩
    a := latch row.aIn v.bus s.a
    g := latch row.gIn v.aluOut s.g
    ir := latch row.irIn s.input.din s.ir
    status := nextStatus s.status s.input.run v.done
    output := some v.done
    pending := s.pending.tail
    tick := s.tick + 1 }

/-- The state a halting tick leaves: the block's registers and Status at their pre-tick values, no `done`, and the halt
mark with IR's pre-tick word and the pre-tick Status (60_exceptions.md R201, R202). The tick's inputs are spent, as
every tick's are (notes/assumptions/5.md). -/
def State.haltedBy (s : State) (kind : HaltKind) : State :=
  { s with
    halt := .halted kind ⟨s.ir, s.status⟩
    output := none
    pending := s.pending.tail
    tick := s.tick + 1 }

/-- `raise Halt(kind, info)`: the block's only error entry, a next state with the halt mark set
(60_exceptions.md R201; notes/assumptions/5.md). -/
def raiseHalt (kind : HaltKind) (s : State) : Result := .next (s.haltedBy kind)

/-- The tick of one decode-table row: no row halts, a row that is not one-hot halts, else settle and commit, in that
order (40_tick_and_control.md R101, R116, R117; 60_exceptions.md R206). -/
def runRow (row : Option Signals) (s : State) : Result :=
  match row with
  | none => raiseHalt .unreachableDecodeRow s
  | some r => if r.oneHot then .next (commit r (settle r s) s) else raiseHalt .multipleLatchEnableAsserted s

/-- A tick: a halted block takes none; IR's pre-tick word is decoded, whatever the Status; a word that does not
decode halts; else the instruction's tick runs (40_tick_and_control.md R100, R101; 10_state.md R34).
`dispatch` is `exec`, which is defined after this file. -/
def runTick (dispatch : Instr → State → Result) (s : State) : Result :=
  match s.halt with
  | .halted kind info => .fault (.tickAfterHalt kind info)
  | .running =>
    match decode s.ir with
    | .error _ => raiseHalt .ambiguousOrUndecodable s
    | .ok i => dispatch i s

/-- The numeric code of a halt kind (60_exceptions.md R200). -/
def HaltKind.code : HaltKind → Nat
  | .ambiguousOrUndecodable => 1
  | .multipleLatchEnableAsserted => 2
  | .unreachableDecodeRow => 3

/-- The bits a Status may be printed as; no rule depends on them (10_state.md R37). -/
def Status.bits : Status → BitVec 2
  | .t0 => 0b00#2
  | .t1 => 0b01#2
  | .t2 => 0b10#2
  | .t3 => 0b11#2

end Sys2Proof.Machine
end

