-- ==== Sys2Proof/Machine/Arith.lean ====
section
/-! DEFINITION. The arithmetic instructions Add and Sub: each has its own rows of the decode table
(40_tick_and_control.md R112) and its tick is the shared tick of its row (42_arith.md R170, R173). -/

namespace Sys2Proof.Machine

/-- The rows of `Add(rx, ry)` (40_tick_and_control.md R112): T1 buffers R[rx] in A, T2 latches A + R[ry] in G,
T3 writes G to R[rx] and retires. -/
def rowAdd (rx ry : RegId) : Status → Option Signals
  | .t0 => some fetchRow
  | .t1 => some { Signals.onBus (.reg rx) with aIn := true }
  | .t2 => some { Signals.onBus (.reg ry) with gIn := true, mode := .add }
  | .t3 => some { (Signals.onBus .g).latching rx with done := true }

/-- A tick of `Add(rx, ry)` in the state's microcycle (42_arith.md R170). -/
def execAdd (rx ry : RegId) (s : State) : Result := runRow (rowAdd rx ry s.status) s

/-- The rows of `Sub(rx, ry)` (40_tick_and_control.md R112): as Add's, with mode subtract at T2. -/
def rowSub (rx ry : RegId) : Status → Option Signals
  | .t0 => some fetchRow
  | .t1 => some { Signals.onBus (.reg rx) with aIn := true }
  | .t2 => some { Signals.onBus (.reg ry) with gIn := true, mode := .subtract }
  | .t3 => some { (Signals.onBus .g).latching rx with done := true }

/-- A tick of `Sub(rx, ry)` in the state's microcycle (42_arith.md R173). -/
def execSub (rx ry : RegId) (s : State) : Result := runRow (rowSub rx ry s.status) s

end Sys2Proof.Machine
end

