-- ==== Sys2Proof/Machine/Move.lean ====
section
/-! DEFINITION. The move instructions Mv and Mvi: each has its own rows of the decode table
(40_tick_and_control.md R112, R117) and its tick is the shared tick of its row (41_move.md R150, R153). -/

namespace Sys2Proof.Machine

/-- The rows of `Mv(rx, ry)` (40_tick_and_control.md R112): T1 puts R[ry] on the bus, latches R[rx] and retires;
T2 and T3 have no row (R117). -/
def rowMv (rx ry : RegId) : Status → Option Signals
  | .t0 => some fetchRow
  | .t1 => some { (Signals.onBus (.reg ry)).latching rx with done := true }
  | .t2 => none
  | .t3 => none

/-- A tick of `Mv(rx, ry)` in the state's microcycle (41_move.md R150). -/
def execMv (rx ry : RegId) (s : State) : Result := runRow (rowMv rx ry s.status) s

/-- The rows of `Mvi(rx)` (40_tick_and_control.md R112): T1 puts `din` on the bus, latches R[rx] and retires;
T2 and T3 have no row (R117). -/
def rowMvi (rx : RegId) : Status → Option Signals
  | .t0 => some fetchRow
  | .t1 => some { (Signals.onBus .din).latching rx with done := true }
  | .t2 => none
  | .t3 => none

/-- A tick of `Mvi(rx)` in the state's microcycle (41_move.md R153). -/
def execMvi (rx : RegId) (s : State) : Result := runRow (rowMvi rx s.status) s

end Sys2Proof.Machine
end

