-- ==== Sys2Proof/Machine/Dispatch.lean ====
section
/-! DEFINITION. The one dispatch: an instruction's tick in a state, one arm per row of the opcode table. -/

namespace Sys2Proof.Machine

def exec (i : Instr) (s : State) : Host.Outcome State Fault Refusal :=
  match i with
  | .mv rx ry => Sys2Proof.Machine.execMv rx ry s
  | .mvi rx => Sys2Proof.Machine.execMvi rx s
  | .add rx ry => Sys2Proof.Machine.execAdd rx ry s
  | .sub rx ry => Sys2Proof.Machine.execSub rx ry s

end Sys2Proof.Machine
end

