-- ==== Sys2Proof/Machine/Step.lean ====
section
/-! DEFINITION. One step of the machine is one tick of the block (40_tick_and_control.md R100), and how an
instruction word is placed where the next step decodes it. -/

namespace Sys2Proof.Machine

/-- One tick (40_tick_and_control.md R100, R101). -/
def step (s : State) : Host.Outcome State Fault Refusal := runTick exec s

/-- `s` just after the fetch tick of the instruction whose bits are `w`: the word is in IR, where every tick decodes
it, and Status is T1, so the very next step is the instruction's first own tick; a halted block is set running
(notes/assumptions/14.md). The block has no program counter (10_state.md R30). -/
def State.withFetchWord (s : State) (nbits w : Nat) : State :=
  { s with ir := BitVec.ofNat 8 (w % 2 ^ nbits), status := .t1, halt := .running }

end Sys2Proof.Machine
end

