-- ==== Sys2Proof/Machine/Table.lean ====
section
/-! DEFINITION. The decode table as one function of (Status, instruction), and what the environment may observe of
a state and of a tick: the snapshot and the settle-phase wires (40_tick_and_control.md R112; 10_state.md R35;
60_exceptions.md R214). -/

namespace Sys2Proof.Machine

/-- `TABLE(Status, inst)` (40_tick_and_control.md R112); `none` is a pair without a row (R117). -/
def table (st : Status) (i : Instr) : Option Signals :=
  match i with
  | .mv rx ry => rowMv rx ry st
  | .mvi rx => rowMvi rx st
  | .add rx ry => rowAdd rx ry st
  | .sub rx ry => rowSub rx ry st

/-- The read-only snapshot (10_state.md R35). -/
structure Snapshot where
  r0 : Word
  r1 : Word
  r2 : Word
  r3 : Word
  a : Word
  g : Word
  ir : Word
  status : Status
  deriving DecidableEq, Repr

/-- The snapshot of a state (10_state.md R35). -/
def State.snapshot (s : State) : Snapshot :=
  ⟨s.regs.r0, s.regs.r1, s.regs.r2, s.regs.r3, s.a, s.g, s.ir, s.status⟩

/-- The settle-phase wires of a tick; `none` reports a wire that carries a drawn don't-care, which is unconstrained
(60_exceptions.md R214). DESIGN CHOICE: `aluOut` is reported beside the two wires R214 names
(notes/assumptions/16.md). -/
structure Wires where
  signals : Signals
  bus : Option Word
  aluOut : Option Word
  deriving DecidableEq, Repr

/-- The wires of a row's settle phase in a state (60_exceptions.md R214). -/
def wiresOf (row : Signals) (s : State) : Wires :=
  { signals := row
    bus := if row.busSel = .dontcare then none else some (settle row s).bus
    aluOut := if row.busSel = .dontcare ∨ row.mode = .dontcare then none else some (settle row s).aluOut }

/-- The wires of the coming tick; `none` where the tick has no row to settle: the block is halted, or the tick
halts at the decode or the table (60_exceptions.md R206, R214). -/
def State.wires (s : State) : Option Wires :=
  match s.halt, decode s.ir with
  | .running, .ok i => (table s.status i).map (wiresOf · s)
  | .running, .error _ => none
  | .halted _ _, _ => none

end Sys2Proof.Machine
end

