-- ==== Sys2Proof/Safety.lean ====
section
/-! DEFINITION. The terms claims are stated in: runs of ticks and the `done` outputs they emit, the launch premise and
the environment's duty, the invariant of every run, and latency (40_tick_and_control.md R115, R118, R122;
70_reset_and_hazards.md R234, R236, R242). -/

namespace Sys2Proof

open Machine

/-- `n` ticks in a row, stopping at the first tick that has no next state. -/
def ticks : Nat → State → Result
  | 0, s => .next s
  | n + 1, s =>
    match step s with
    | .next t => ticks n t
    | .fault f => .fault f
    | .refused r => .refused r

/-- The `done` outputs that `n` ticks emit, in order; a halting tick emits none
(40_tick_and_control.md R115; 60_exceptions.md R201). -/
def doneTrace : Nat → State → List Bool
  | 0, _ => []
  | n + 1, s =>
    match step s with
    | .next t => t.output.toList ++ doneTrace n t
    | .fault _ => []
    | .refused _ => []

/-- A row as the table of 40_tick_and_control.md R112 prints it: bus source, the general register latched if any,
`a_in`, `g_in`, `ir_in`, `mode`, `done`. -/
def printedRow (sel : BusSel) (latched : Option RegId) (a g ir : Bool) (mode : ModeSignal) (done : Bool) :
    Signals where
  busSel := sel
  r0In := decide (latched = some .r0)
  r1In := decide (latched = some .r1)
  r2In := decide (latched = some .r2)
  r3In := decide (latched = some .r3)
  aIn := a
  gIn := g
  irIn := ir
  mode := mode
  done := done

/-- `t` is `s` one committed tick later as far as the halt mark and the environment's inputs go. -/
def OneTickOn (s t : State) : Prop :=
  t.halt = s.halt ∧ t.pending = s.pending.tail ∧ t.tick = s.tick + 1

/-- The block can start an instruction: not halted, at T0, IR decodes (70_reset_and_hazards.md R234, parts 1 to 3). -/
def Ready (s : State) : Prop :=
  s.halt = .running ∧ s.status = .t0 ∧ decodable s.ir = true

/-- The environment's duty for the coming tick: at T0 the word on `din` is decodable
(70_reset_and_hazards.md R236). -/
def EnvironmentDuty (s : State) : Prop :=
  s.status = .t0 → decodable s.input.din = true

/-- What an Add or Sub in progress has left in A and G: at T2 IR decodes as Add or Sub and A holds R[rx]; at T3 G
holds the result too (40_tick_and_control.md R118; 42_arith.md R170, R173). -/
def Coherent (s : State) : Prop :=
  match s.status with
  | .t0 => True
  | .t1 => True
  | .t2 => ∃ rx ry, (decode s.ir = .ok (.add rx ry) ∨ decode s.ir = .ok (.sub rx ry)) ∧ s.a = s.reg rx
  | .t3 => ∃ rx ry, s.a = s.reg rx ∧
      (decode s.ir = .ok (.add rx ry) ∧ s.g = s.reg rx + s.reg ry ∨
       decode s.ir = .ok (.sub rx ry) ∧ s.g = s.reg rx - s.reg ry)

/-- A halted block halted on an undecodable word, which is still in IR, in the Status it still has
(60_exceptions.md R201 to R203). -/
def HaltMarkSound (s : State) : Prop :=
  ∀ kind info, s.halt = .halted kind info →
    kind = .ambiguousOrUndecodable ∧ info.word = s.ir ∧ info.status = s.status ∧ decodable s.ir = false

/-- The invariant of every run of the block. -/
def RunInvariant (s : State) : Prop := Coherent s ∧ HaltMarkSound s

/-- An instruction's latency in ticks, its fetch tick counted (40_tick_and_control.md R122). -/
def Instr.latency : Instr → Nat
  | .mv _ _ => 2
  | .mvi _ => 2
  | .add _ _ => 4
  | .sub _ _ => 4

/-- Mv or Mvi, the moves of 70_reset_and_hazards.md R242. -/
def Instr.isMove : Instr → Bool
  | .mv _ _ => true
  | .mvi _ => true
  | .add _ _ => false
  | .sub _ _ => false

/-- A line's inputs, tick by tick, with `run` held at 1: its word, then Mvi's data or `filler` on every ignored tick
(70_reset_and_hazards.md R237 to R239). -/
def AsmLine.inputs (l : AsmLine) (filler : Word) : List Input :=
  ⟨true, encode l.instr⟩ ::
    List.replicate (l.instr.latency - 1) ⟨true, match l.instr with
      | .mv _ _ => filler
      | .mvi _ => l.data.getD filler
      | .add _ _ => filler
      | .sub _ _ => filler⟩

/-- The inputs of a program issued back to back; each line comes with the word on its ignored ticks. -/
def programInputs (prog : List (AsmLine × Word)) : List Input :=
  prog.flatMap fun p => p.1.inputs p.2

end Sys2Proof
end

