-- ==== Sys2Proof/Certificates/Slice0/Obligations.lean ====
section
/-! DEFINITION. The statements for the provers. Each docstring names the rules of spec/ it formalises; where a clause
rests on a decision of 92_eei_decisions.md or on a log entry, it says which. -/

open Sys2Proof Sys2Proof.Machine

/-- R107: mode 0 adds, mode 1 subtracts, modulo 2^8. -/
def Obligations.AluComputesModulo256 : Prop :=
  ∀ a b : Word,
    (alu false a b).toNat = (a.toNat + b.toNat) % 256 ∧
    ((alu true a b).toNat : Int) = ((a.toNat : Int) - (b.toNat : Int)) % 256

/-- R105: the bus word of each selector; under `Dontcare` it is whatever is drawn. -/
def Obligations.BusMultiplexerSelectsItsSource : Prop :=
  ∀ (draw : Word) (s : State),
    (∀ k, busWord draw (.reg k) s = s.reg k) ∧
    busWord draw .din s = s.input.din ∧
    busWord draw .g s = s.g ∧
    busWord draw .dontcare s = draw

/-- R113: the transition table, and that a commit applies it to the tick's `run` and the row's `done`. -/
def Obligations.StatusTransitionTable : Prop :=
  (∀ done, nextStatus .t0 true done = .t1 ∧ nextStatus .t0 false done = .t0) ∧
  (∀ run, nextStatus .t1 run true = .t0 ∧ nextStatus .t1 run false = .t2 ∧
    nextStatus .t2 run true = .t0 ∧ nextStatus .t2 run false = .t3 ∧
    nextStatus .t3 run true = .t0 ∧ nextStatus .t3 run false = .t3) ∧
  (∀ row s, (commit row (settle row s) s).status = nextStatus s.status s.input.run row.done)

/-- R21: a general register changes in a tick only if that tick's signal vector asserts its own enable, and then takes
the bus word; it is read only through the bus, under its own selector. -/
def Obligations.GeneralRegistersLatchOnlyTheBus : Prop :=
  (∀ row s k, (commit row (settle row s) s).reg k =
    if row.rIn k = true then (settle row s).bus else s.reg k) ∧
  (∀ s t, step s = .next t → ∀ k, t.reg k ≠ s.reg k →
    ∃ i row, decode s.ir = .ok i ∧ table s.status i = some row ∧ row.rIn k = true ∧
      t.reg k = (settle row s).bus) ∧
  (∀ row s k v, row.busSel ≠ .reg k → settle row (s.setReg k v) = settle row s)

/-- R23: G changes only if `g_in` is asserted, and then takes the ALU's output; it is the bus source `G`. -/
def Obligations.ResultBufferLatchesTheAlu : Prop :=
  (∀ row s, (commit row (settle row s) s).g = if row.gIn = true then (settle row s).aluOut else s.g) ∧
  (∀ s t, step s = .next t → t.g ≠ s.g →
    ∃ i row, decode s.ir = .ok i ∧ table s.status i = some row ∧ row.gIn = true ∧
      t.g = (settle row s).aluOut) ∧
  (∀ row s, row.busSel = .g → (settle row s).bus = s.g)

/-- R22, R108 (derived in the spec): A changes only if `a_in` is asserted, and then takes the bus word; it is the ALU's
first operand and no bus source. -/
def Obligations.OperandBufferLatchesTheBus : Prop :=
  (∀ row s, (commit row (settle row s) s).a = if row.aIn = true then (settle row s).bus else s.a) ∧
  (∀ s t, step s = .next t → t.a ≠ s.a →
    ∃ i row, decode s.ir = .ok i ∧ table s.status i = some row ∧ row.aIn = true ∧
      t.a = (settle row s).bus) ∧
  (∀ row s, ∃ mode, (settle row s).aluOut = alu mode s.a (settle row s).bus ∧
    (row.mode = .add → mode = false) ∧ (row.mode = .subtract → mode = true)) ∧
  (∀ row s v, (settle row { s with a := v }).bus = (settle row s).bus)

/-- R24, R61 with decision D5 (log 8): IR takes `din` in every committed T0 tick and changes in no other tick. -/
def Obligations.InstructionRegisterLoadsOnlyAtT0 : Prop :=
  ∀ s t, step s = .next t →
    (t.halt = .running → s.status = .t0 → t.ir = s.input.din) ∧
    (t.halt = .running → s.status ≠ .t0 → t.ir = s.ir) ∧
    (t.halt ≠ .running → t.ir = s.ir)

/-- R115: a committed tick emits the `done` of its signal vector; a halting tick emits none. -/
def Obligations.DoneOutputIsTheRowsDone : Prop :=
  ∀ s t, step s = .next t →
    (t.halt = .running →
      ∃ i row, decode s.ir = .ok i ∧ table s.status i = some row ∧ t.output = some row.done) ∧
    (t.halt ≠ .running → t.output = none)

/-- R25: Status changes only in a committed tick and then by the transition function; it starts at T0, and T0 is the
only Status that a tick can leave as it is and go on. -/
def Obligations.StatusChangesOnlyByTheTransition : Prop :=
  (∀ s t, step s = .next t → t.halt = .running →
    ∃ i row, decode s.ir = .ok i ∧ table s.status i = some row ∧
      t.status = nextStatus s.status s.input.run row.done) ∧
  (∀ s t, step s = .next t → t.halt ≠ .running → t.status = s.status) ∧
  (∀ init inputs, (State.start init inputs).status = .t0) ∧
  (∀ s t, step s = .next t → t.halt = .running → t.status = s.status → s.status = .t0)

/-- R112, R113 and the head of 41_move.md, with decision D5: the T0 tick is the same for every instruction: IR takes
`din`, Status goes to T1 if `run`, nothing else changes, `done` is 0. -/
def Obligations.FetchTickOfEveryInstruction : Prop :=
  ∀ i s, s.status = .t0 →
    ∃ t, exec i s = .next t ∧ (∀ k, t.reg k = s.reg k) ∧ t.a = s.a ∧ t.g = s.g ∧
      t.ir = s.input.din ∧ t.status = (if s.input.run = true then .t1 else .t0) ∧
      t.output = some false ∧ OneTickOn s t

/-- R150, tick 2: Mv's own tick copies R[ry] to R[rx], for every rx and ry (equal ones too, R152), and retires. -/
def Obligations.MvTickCopiesTheRegister : Prop :=
  ∀ rx ry s, s.status = .t1 →
    ∃ t, exec (.mv rx ry) s = .next t ∧ t.reg rx = s.reg ry ∧ (∀ k, k ≠ rx → t.reg k = s.reg k) ∧
      t.a = s.a ∧ t.g = s.g ∧ t.ir = s.ir ∧ t.status = .t0 ∧ t.output = some true ∧ OneTickOn s t

/-- R153, tick 2: Mvi's own tick loads the tick's `din` into R[rx] and retires. -/
def Obligations.MviTickLoadsTheInput : Prop :=
  ∀ rx s, s.status = .t1 →
    ∃ t, exec (.mvi rx) s = .next t ∧ t.reg rx = s.input.din ∧ (∀ k, k ≠ rx → t.reg k = s.reg k) ∧
      t.a = s.a ∧ t.g = s.g ∧ t.ir = s.ir ∧ t.status = .t0 ∧ t.output = some true ∧ OneTickOn s t

/-- R170, ticks 2 to 4: Add's own three ticks, each with what it changes and leaves; together they put the sum modulo
256 of the pre-instruction R[rx] and R[ry] in R[rx]. -/
def Obligations.AddTicksComputeTheSum : Prop :=
  ∀ rx ry s, s.status = .t1 →
    ∃ t u v, exec (.add rx ry) s = .next t ∧ exec (.add rx ry) t = .next u ∧ exec (.add rx ry) u = .next v ∧
      (t.a = s.reg rx ∧ t.g = s.g ∧ (∀ k, t.reg k = s.reg k) ∧ t.ir = s.ir ∧ t.status = .t2 ∧
        t.output = some false ∧ OneTickOn s t) ∧
      (u.a = s.reg rx ∧ u.g.toNat = ((s.reg rx).toNat + (s.reg ry).toNat) % 256 ∧
        (∀ k, u.reg k = s.reg k) ∧ u.ir = s.ir ∧ u.status = .t3 ∧ u.output = some false ∧ OneTickOn t u) ∧
      (v.a = s.reg rx ∧ v.g = u.g ∧ (v.reg rx).toNat = ((s.reg rx).toNat + (s.reg ry).toNat) % 256 ∧
        (∀ k, k ≠ rx → v.reg k = s.reg k) ∧ v.ir = s.ir ∧ v.status = .t0 ∧ v.output = some true ∧
        OneTickOn u v)

/-- R173, ticks 2 to 4: Sub's own three ticks, each with what it changes and leaves; together they put the difference
modulo 256, R[rx] less R[ry], in R[rx]. -/
def Obligations.SubTicksComputeTheDifference : Prop :=
  ∀ rx ry s, s.status = .t1 →
    ∃ t u v, exec (.sub rx ry) s = .next t ∧ exec (.sub rx ry) t = .next u ∧ exec (.sub rx ry) u = .next v ∧
      (t.a = s.reg rx ∧ t.g = s.g ∧ (∀ k, t.reg k = s.reg k) ∧ t.ir = s.ir ∧ t.status = .t2 ∧
        t.output = some false ∧ OneTickOn s t) ∧
      (u.a = s.reg rx ∧ (u.g.toNat : Int) = (((s.reg rx).toNat : Int) - ((s.reg ry).toNat : Int)) % 256 ∧
        (∀ k, u.reg k = s.reg k) ∧ u.ir = s.ir ∧ u.status = .t3 ∧ u.output = some false ∧ OneTickOn t u) ∧
      (v.a = s.reg rx ∧ v.g = u.g ∧
        ((v.reg rx).toNat : Int) = (((s.reg rx).toNat : Int) - ((s.reg ry).toNat : Int)) % 256 ∧
        (∀ k, k ≠ rx → v.reg k = s.reg k) ∧ v.ir = s.ir ∧ v.status = .t0 ∧ v.output = some true ∧
        OneTickOn u v)

/-- R172, R175: with rx = ry, Add's own ticks double the register modulo 256 and Sub's clear it. -/
def Obligations.ArithmeticOnOneRegister : Prop :=
  ∀ k s, s.status = .t1 →
    (∃ t u v, exec (.add k k) s = .next t ∧ exec (.add k k) t = .next u ∧ exec (.add k k) u = .next v ∧
      (v.reg k).toNat = 2 * (s.reg k).toNat % 256 ∧ v.g = v.reg k) ∧
    (∃ t u v, exec (.sub k k) s = .next t ∧ exec (.sub k k) t = .next u ∧ exec (.sub k k) u = .next v ∧
      v.reg k = 0 ∧ v.g = 0)

/-- R117, R200 to R202: Mv and Mvi at T2 or T3 halt with UnreachableDecodeRow. That these pairs halt is decision D10
(log 9); that the snapshot stays and no `done` is emitted is D9 (log 5); what the halt records is D17 (log 17). -/
def Obligations.MovesWithoutARowHalt : Prop :=
  ∀ i s, i.isMove = true → s.status = .t2 ∨ s.status = .t3 →
    ∃ t, exec i s = .next t ∧ t.halt = .halted .unreachableDecodeRow ⟨s.ir, s.status⟩ ∧
      t.snapshot = s.snapshot ∧ t.output = none

/-- R112 with decision D6, and R101, R102: the twelve rows and the pairs without one, and that an instruction's tick
commits exactly its row. -/
def Obligations.DecodeTableRows : Prop :=
  (∀ i, table .t0 i = some (printedRow .dontcare none false false true .dontcare false)) ∧
  (∀ rx ry, table .t1 (.mv rx ry) = some (printedRow (.reg ry) (some rx) false false false .dontcare true)) ∧
  (∀ rx, table .t1 (.mvi rx) = some (printedRow .din (some rx) false false false .dontcare true)) ∧
  (∀ rx ry i, i = .add rx ry ∨ i = .sub rx ry →
    table .t1 i = some (printedRow (.reg rx) none true false false .dontcare false) ∧
    table .t3 i = some (printedRow .g (some rx) false false false .dontcare true)) ∧
  (∀ rx ry, table .t2 (.add rx ry) = some (printedRow (.reg ry) none false true false .add false)) ∧
  (∀ rx ry, table .t2 (.sub rx ry) = some (printedRow (.reg ry) none false true false .subtract false)) ∧
  (∀ i, i.isMove = true → table .t2 i = none ∧ table .t3 i = none) ∧
  (∀ i s row, table s.status i = some row → exec i s = .next (commit row (settle row s) s))

/-- R116 (derived in the spec): every row asserts at most one of the four enables, so no instruction's tick raises
MultipleLatchEnableAsserted. -/
def Obligations.OneHotLatchEnables : Prop :=
  (∀ st i row, table st i = some row →
    ∀ j k, row.rIn j = true → row.rIn k = true → j = k) ∧
  (∀ i s t, s.halt = .running → exec i s = .next t →
    ∀ info, t.halt ≠ .halted .multipleLatchEnableAsserted info)

/-- R120 (derived in the spec): in every row of the table, no don't-care draw reaches the committed state. -/
def Obligations.DontcareDrawsReachNoState : Prop :=
  ∀ st i row, table st i = some row →
    ∀ s drawBus drawMode drawBus' drawMode',
      commit row (settleWith drawBus drawMode row s) s = commit row (settleWith drawBus' drawMode' row s) s

/-- R214, R119 with decision D21: the wires of the coming tick are reported exactly where the block is not halted, IR
decodes and the pair has a row; the signals are that row; a wire is reported as unconstrained exactly where it is drawn
(the bus at T0, the ALU's output outside T2) and else carries the tick's settled value. That the ALU's output is
observable beside the bus and the signal vector is the model's own choice (log 16). -/
def Obligations.DrawnWiresAreUnconstrained : Prop :=
  (∀ (s : State) (w : Wires), s.wires = some w →
    s.halt = .running ∧
    (∃ i row, decode s.ir = .ok i ∧ table s.status i = some row ∧ w.signals = row ∧
      (∀ v, w.bus = some v → v = (settle row s).bus) ∧
      (∀ v, w.aluOut = some v → v = (settle row s).aluOut)) ∧
    (w.bus = none ↔ s.status = .t0) ∧ (w.aluOut = none ↔ s.status ≠ .t2)) ∧
  (∀ (s : State) i row, s.halt = .running → decode s.ir = .ok i → table s.status i = some row →
    ∃ w, s.wires = some w)

/-- R101: with IR decoding and the block not halted, a step is the decoded instruction's tick and nothing else. -/
def Obligations.StepRunsTheDecodedInstruction : Prop :=
  ∀ s i, s.halt = .running → decode s.ir = .ok i → step s = exec i s

/-- R77, R200 to R202 with decisions D8, D9, D17 (log 5, 10, 17): an undecodable IR halts the block in every Status,
with the registers and Status as they were. -/
def Obligations.UndecodableWordHalts : Prop :=
  ∀ s, s.halt = .running → decodable s.ir = false →
    step s = .next { s with
      halt := .halted .ambiguousOrUndecodable ⟨s.ir, s.status⟩
      output := none
      pending := s.pending.tail
      tick := s.tick + 1 }

/-- R34, R208 with decision D9 (log 5): a halted block takes no tick. -/
def Obligations.HaltedBlockTakesNoTick : Prop :=
  ∀ s kind info, s.halt = .halted kind info → step s = .fault (.tickAfterHalt kind info)

/-- R201, R202, R206 with decisions D9, D10, D17 (log 5, 9, 17): a halting tick changes nothing the snapshot shows, emits no `done`,
records IR and Status, and its kind follows the order of the checks. -/
def Obligations.HaltingTickCommitsNothing : Prop :=
  ∀ s t, step s = .next t → t.halt ≠ .running →
    t.snapshot = s.snapshot ∧ t.output = none ∧
    ((decodable s.ir = false ∧ t.halt = .halted .ambiguousOrUndecodable ⟨s.ir, s.status⟩) ∨
     (∃ i, decode s.ir = .ok i ∧ i.isMove = true ∧ (s.status = .t2 ∨ s.status = .t3) ∧
       t.halt = .halted .unreachableDecodeRow ⟨s.ir, s.status⟩))

/-- R114: outside T0 the value of `run` has no effect on the step. -/
def Obligations.RunIsReadOnlyAtT0 : Prop :=
  ∀ (s : State) (run run' : Bool) (din : Word), s.status ≠ .t0 → step (s.withInput ⟨run, din⟩) = step (s.withInput ⟨run', din⟩)

/-- R51, R239: outside T0, and unless it is Mvi's T1 tick, neither input has any effect on the step. -/
def Obligations.InputsAreIgnoredElsewhere : Prop :=
  ∀ (s : State) (inp inp' : Input), s.status ≠ .t0 → (s.status = .t1 → ∀ rx, decode s.ir ≠ .ok (.mvi rx)) →
    step (s.withInput inp) = step (s.withInput inp')

/-- R28, R100, R120 (derived in the spec), with decision D7: a tick is a function of the snapshot, the halt mark, `run` and `din`: neither an earlier `done`, nor
a draw, nor a later input reaches the new snapshot, halt mark or `done`. The two states may differ in the fields by which
the model records `done` (log 3), settles later inputs (log 2) and indexes the draws (log 4). -/
def Obligations.TickDependsOnlyOnStateAndInputs : Prop :=
  ∀ s s' t : State, s.snapshot = s'.snapshot → s.halt = s'.halt → s.input = s'.input → step s = .next t →
    ∃ t', step s' = .next t' ∧ t'.snapshot = t.snapshot ∧ t'.halt = t.halt ∧ t'.output = t.output

/-- R118, R203 (derived in the spec): every step keeps the invariant: at T2 and T3 IR decodes as Add or Sub and A and G
hold what it has computed, and a halt is always on an undecodable IR. Its clauses about a halted state rest on R201, R202 and decisions D9 and D17
(log 5, 17). -/
def Obligations.InvariantKeptByEveryStep : Prop :=
  ∀ s t, RunInvariant s → step s = .next t → RunInvariant t

/-- R36, R230: the invariant holds initially, for every `INIT` and every input sequence. -/
def Obligations.InvariantHoldsAtStart : Prop :=
  ∀ init inputs, RunInvariant (State.start init inputs)

/-- R118: in every state that a run from any `INIT` under any inputs reaches, the invariant holds. -/
def Obligations.InvariantHoldsInEveryRun : Prop :=
  ∀ init inputs n t, ticks n (State.start init inputs) = .next t → RunInvariant t

/-- R236, R203, R234 with decisions D5, D8: while the environment keeps a decodable word on `din` in T0 ticks, a running
block in the invariant takes its next tick, does not halt, and its IR decodes again. -/
def Obligations.DutyKeepsTheBlockRunning : Prop :=
  ∀ s, RunInvariant s → s.halt = .running → decodable s.ir = true → EnvironmentDuty s →
    ∃ t, step s = .next t ∧ RunInvariant t ∧ t.halt = .running ∧ decodable t.ir = true

/-- R203, R236 with decisions D5, D8 (log 8, 10): an undecodable word on `din` in a T0 tick is latched, and halts the
block in the next tick, in whichever Status that is. The halting tick's unchanged snapshot and missing `done` are R201 with
D9 (log 5), its record R202 with D17 (log 17). -/
def Obligations.UndecodableFetchHaltsOneTickLater : Prop :=
  ∀ s, Ready s → decodable s.input.din = false →
    ∃ t u, step s = .next t ∧ t.halt = .running ∧ t.ir = s.input.din ∧
      t.status = (if s.input.run = true then .t1 else .t0) ∧
      step t = .next u ∧ u.halt = .halted .ambiguousOrUndecodable ⟨s.input.din, t.status⟩ ∧
      u.snapshot = t.snapshot ∧ u.output = none

/-- R124: an idle tick (T0, `run` = 0) changes IR alone and emits `done` = 0. -/
def Obligations.IdleTickReloadsOnlyIR : Prop :=
  ∀ s, Ready s → s.input.run = false →
    ∃ t, step s = .next t ∧ (∀ k, t.reg k = s.reg k) ∧ t.a = s.a ∧ t.g = s.g ∧ t.status = .t0 ∧
      t.ir = s.input.din ∧ t.output = some false ∧ OneTickOn s t

/-- R151: the end state of Mv, two ticks after its fetch tick begins. -/
def Obligations.MvEndState : Prop :=
  ∀ s w rx ry, Ready s → s.inputAt 0 = ⟨true, w⟩ → decode w = .ok (.mv rx ry) →
    ∃ t, ticks 2 s = .next t ∧ t.reg rx = s.reg ry ∧ (∀ k, k ≠ rx → t.reg k = s.reg k) ∧
      t.a = s.a ∧ t.g = s.g ∧ t.ir = w ∧ t.status = .t0 ∧ t.halt = .running ∧
      doneTrace 2 s = [false, true]

/-- R154: the end state of Mvi; its data is `din` of the T1 tick, any word, decodable or not (R155). -/
def Obligations.MviEndState : Prop :=
  ∀ s w rx, Ready s → s.inputAt 0 = ⟨true, w⟩ → decode w = .ok (.mvi rx) →
    ∃ t, ticks 2 s = .next t ∧ t.reg rx = (s.inputAt 1).din ∧ (∀ k, k ≠ rx → t.reg k = s.reg k) ∧
      t.a = s.a ∧ t.g = s.g ∧ t.ir = w ∧ t.status = .t0 ∧ t.halt = .running ∧
      doneTrace 2 s = [false, true]

/-- R171: the end state of Add, four ticks after its fetch tick begins. -/
def Obligations.AddEndState : Prop :=
  ∀ s w rx ry, Ready s → s.inputAt 0 = ⟨true, w⟩ → decode w = .ok (.add rx ry) →
    ∃ t, ticks 4 s = .next t ∧ (t.reg rx).toNat = ((s.reg rx).toNat + (s.reg ry).toNat) % 256 ∧
      t.a = s.reg rx ∧ t.g.toNat = ((s.reg rx).toNat + (s.reg ry).toNat) % 256 ∧
      (∀ k, k ≠ rx → t.reg k = s.reg k) ∧ t.ir = w ∧ t.status = .t0 ∧ t.halt = .running ∧
      doneTrace 4 s = [false, false, false, true]

/-- R174: the end state of Sub, four ticks after its fetch tick begins. -/
def Obligations.SubEndState : Prop :=
  ∀ s w rx ry, Ready s → s.inputAt 0 = ⟨true, w⟩ → decode w = .ok (.sub rx ry) →
    ∃ t, ticks 4 s = .next t ∧
      ((t.reg rx).toNat : Int) = (((s.reg rx).toNat : Int) - ((s.reg ry).toNat : Int)) % 256 ∧
      t.a = s.reg rx ∧ (t.g.toNat : Int) = (((s.reg rx).toNat : Int) - ((s.reg ry).toNat : Int)) % 256 ∧
      (∀ k, k ≠ rx → t.reg k = s.reg k) ∧ t.ir = w ∧ t.status = .t0 ∧ t.halt = .running ∧
      doneTrace 4 s = [false, false, false, true]

/-- R121 to R123: every instruction fetched by a running block retires after its latency: Status is back at T0 then and
not before, and `done` is 1 in that last tick alone. -/
def Obligations.InstructionRetiresExactlyOnce : Prop :=
  ∀ s w i, Ready s → s.inputAt 0 = ⟨true, w⟩ → decode w = .ok i →
    (∃ t, ticks i.latency s = .next t ∧ t.status = .t0 ∧ t.halt = .running) ∧
    (∀ n, 0 < n → n < i.latency → ∃ u, ticks n s = .next u ∧ u.status ≠ .t0) ∧
    doneTrace i.latency s = List.replicate (i.latency - 1) false ++ [true]

/-- R242, R240: a program of m moves and n arithmetic instructions issued back to back takes 2m + 4n ticks, and `done`
is 1 once for each instruction. -/
def Obligations.BackToBackThroughput : Prop :=
  ∀ (prog : List (AsmLine × Word)) (rest : List Input) (s : State),
    Ready s → s.pending = programInputs prog ++ rest →
    let m := prog.countP (fun p => p.1.instr.isMove)
    let n := prog.countP (fun p => !p.1.instr.isMove)
    (∃ t, ticks (2 * m + 4 * n) s = .next t ∧ Ready t ∧ t.pending = rest) ∧
    (doneTrace (2 * m + 4 * n) s).count true = prog.length ∧
    (prog ≠ [] → (doneTrace (2 * m + 4 * n) s).getLast? = some true)

/-- R78 under every opcode assignment R7 admits: decoding an instruction's word gives the instruction back. -/
def Obligations.DecodeEncodeUnderEveryOpcodeAssignment : Prop :=
  (∀ oc : Opcodes, oc.distinct = true → ∀ i, decodeWith oc (encodeWith oc i) = .ok i) ∧
  (∀ i, decode (encode i) = .ok i)

/-- R78: encoding what a word decodes to gives the word back, for Mvi with its two ignored bits cleared; under every
opcode assignment. -/
def Obligations.EncodeDecodeGivesTheCanonicalWord : Prop :=
  ∀ (oc : Opcodes) w i, decodeWith oc w = .ok i →
    encodeWith oc i = match i with
      | .mv _ _ => w
      | .mvi _ => w &&& 0xFC#8
      | .add _ _ => w
      | .sub _ _ => w

/-- R74: the two low bits of an Mvi word change nothing, under every assignment R7 admits. -/
def Obligations.MviIgnoresItsLowBits : Prop :=
  ∀ oc : Opcodes, oc.distinct = true → ∀ x y y' : SelBits,
    decodeWith oc (packWord oc.mvi x y) = .ok (.mvi (RegId.ofSel x)) ∧
    decodeWith oc (packWord oc.mvi x y) = decodeWith oc (packWord oc.mvi x y')

/-- R26, R71, R75, R77, R80 with decisions D1, D2, D4 (log 7): a selector code names its register, both ways; `rx` is the
register that bits [3:2] of the word name and `ry` the one that bits [1:0] name; each variant has sixteen words and the
undecodable words are 0x40 to 0xFF. -/
def Obligations.DecodeMapOfAllWords : Prop :=
  (RegId.ofSel 0b00#2 = .r0 ∧ RegId.ofSel 0b01#2 = .r1 ∧ RegId.ofSel 0b10#2 = .r2 ∧ RegId.ofSel 0b11#2 = .r3) ∧
  (RegId.r0.toSel = 0b00#2 ∧ RegId.r1.toSel = 0b01#2 ∧ RegId.r2.toSel = 0b10#2 ∧ RegId.r3.toSel = 0b11#2) ∧
  ∀ w : Word,
    rxField w = RegId.ofSel (BitVec.ofNat 2 (w.toNat / 4 % 4)) ∧
    ryField w = RegId.ofSel (BitVec.ofNat 2 (w.toNat % 4)) ∧
    (decode w = .ok (.mv (rxField w) (ryField w)) ↔ w.toNat < 0x10) ∧
    (decode w = .ok (.mvi (rxField w)) ↔ 0x10 ≤ w.toNat ∧ w.toNat < 0x20) ∧
    (decode w = .ok (.add (rxField w) (ryField w)) ↔ 0x20 ≤ w.toNat ∧ w.toNat < 0x30) ∧
    (decode w = .ok (.sub (rxField w) (ryField w)) ↔ 0x30 ≤ w.toNat ∧ w.toNat < 0x40) ∧
    (decodable w = false ↔ 0x40 ≤ w.toNat)

/-- R80 and 95_test_vectors.md V1: words written out from the encoding decode to the instruction they stand for. -/
def Obligations.WrittenOutWordsDecode : Prop :=
  decode 0b00001110#8 = .ok (.mv .r3 .r2) ∧
  decode 0b00011011#8 = .ok (.mvi .r2) ∧
  decode 0b00101110#8 = .ok (.add .r3 .r2) ∧
  decode 0b00111011#8 = .ok (.sub .r2 .r3) ∧
  decode 0b01000000#8 = .error (.ambiguousOrUndecodable 0b01000000#8)

/-- R83 with decisions D3 and D16 (log 7, 17): a legal line of assembler puts its instruction's word on `din`, for `mvi`
the one whose ignored bits are 00, and after it, for `mvi` alone, the data byte. -/
def Obligations.AssemblerLineWords : Prop :=
  ∀ l : AsmLine, l.wellFormed = true →
    ∃ w, decode w = .ok l.instr ∧
      ((∃ rx d, l.instr = .mvi rx ∧ l.data = some d ∧ w.toNat % 4 = 0 ∧ l.words = [w, d]) ∨
       ((∀ rx, l.instr ≠ .mvi rx) ∧ l.words = [w]))

/-- R36, R230: the initial state for every `INIT`; and, by the model's choice (log 1, log 2), State.reset is the one with
every register zero and no inputs settled. -/
def Obligations.InitialState : Prop :=
  (∀ init inputs,
    (State.start init inputs).snapshot =
      ⟨init.regs.r0, init.regs.r1, init.regs.r2, init.regs.r3, init.a, init.g, init.ir, .t0⟩ ∧
    (State.start init inputs).halt = .running ∧ (State.start init inputs).pending = inputs) ∧
  State.reset.snapshot = ⟨0, 0, 0, 0, 0, 0, 0, .t0⟩ ∧ State.reset.halt = .running ∧ State.reset.pending = []
end

