-- ==== Sys2Proof/Laws/Decode.lean ====
section
/-! SUPPORT. The fields of a word: a selector and its register determine each other, and a word's fields are what it
was put together from. -/

namespace Sys2Proof

@[simp] theorem RegId.ofSel_toSel (k : RegId) : RegId.ofSel k.toSel = k := by
  cases k <;> rfl

@[simp] theorem RegId.toSel_ofSel (v : SelBits) : (RegId.ofSel v).toSel = v := by
  revert v
  decide

section packWord
variable (op : OpcodeBits) (x y : SelBits)

@[simp] theorem opField_packWord : opField (packWord op x y) = op := by
  revert op x y
  decide

@[simp] theorem rxField_packWord : rxField (packWord op x y) = RegId.ofSel x := by
  revert op x y
  decide

@[simp] theorem ryField_packWord : ryField (packWord op x y) = RegId.ofSel y := by
  revert op x y
  decide

end packWord

theorem packWord_fields (w : Word) :
    packWord (opField w) (rxField w).toSel (ryField w).toSel = w := by
  revert w
  decide

end Sys2Proof
end

