-- ==== Sys2Proof/Laws/State.lean ====
section
/-! SUPPORT. What each update of a state does to each field: one lemma a field, true by rfl, and what reading a
register after writing one gives. -/

namespace Sys2Proof.Machine

theorem Regs.get_set (r : Regs) (k j : RegId) (v : Word) :
    (r.set k v).get j = if j = k then v else r.get j := by
  cases k <;> cases j <;> rfl

@[simp] theorem Regs.get_set_same (r : Regs) (k : RegId) (v : Word) : (r.set k v).get k = v := by
  simp [Regs.get_set]

theorem Regs.ext_get {r q : Regs} (h : ∀ k, r.get k = q.get k) : r = q := by
  obtain ⟨a, b, c, d⟩ := r
  obtain ⟨a', b', c', d'⟩ := q
  have h0 : a = a' := h .r0
  have h1 : b = b' := h .r1
  have h2 : c = c' := h .r2
  have h3 : d = d' := h .r3
  subst h0 h1 h2 h3
  rfl

theorem State.reg_setReg (s : State) (k j : RegId) (v : Word) :
    (s.setReg k v).reg j = if j = k then v else s.reg j :=
  Regs.get_set s.regs k j v

@[simp] theorem State.reg_setReg_same (s : State) (k : RegId) (v : Word) : (s.setReg k v).reg k = v := by
  simp [State.reg_setReg]

section setReg
variable (s : State) (k : RegId) (v : Word)
@[simp] theorem State.setReg_a : (s.setReg k v).a = s.a := rfl
@[simp] theorem State.setReg_g : (s.setReg k v).g = s.g := rfl
@[simp] theorem State.setReg_ir : (s.setReg k v).ir = s.ir := rfl
@[simp] theorem State.setReg_status : (s.setReg k v).status = s.status := rfl
@[simp] theorem State.setReg_halt : (s.setReg k v).halt = s.halt := rfl
@[simp] theorem State.setReg_output : (s.setReg k v).output = s.output := rfl
@[simp] theorem State.setReg_pending : (s.setReg k v).pending = s.pending := rfl
@[simp] theorem State.setReg_tick : (s.setReg k v).tick = s.tick := rfl
end setReg

section haltedBy
variable (s : State) (kind : HaltKind)
@[simp] theorem State.haltedBy_regs : (s.haltedBy kind).regs = s.regs := rfl
@[simp] theorem State.haltedBy_reg (k : RegId) : (s.haltedBy kind).reg k = s.reg k := rfl
@[simp] theorem State.haltedBy_a : (s.haltedBy kind).a = s.a := rfl
@[simp] theorem State.haltedBy_g : (s.haltedBy kind).g = s.g := rfl
@[simp] theorem State.haltedBy_ir : (s.haltedBy kind).ir = s.ir := rfl
@[simp] theorem State.haltedBy_status : (s.haltedBy kind).status = s.status := rfl
@[simp] theorem State.haltedBy_halt : (s.haltedBy kind).halt = .halted kind ⟨s.ir, s.status⟩ := rfl
@[simp] theorem State.haltedBy_output : (s.haltedBy kind).output = none := rfl
@[simp] theorem State.haltedBy_pending : (s.haltedBy kind).pending = s.pending.tail := rfl
@[simp] theorem State.haltedBy_tick : (s.haltedBy kind).tick = s.tick + 1 := rfl
end haltedBy

section withInput
variable (s : State) (inp : Input)
@[simp] theorem State.withInput_regs : (s.withInput inp).regs = s.regs := rfl
@[simp] theorem State.withInput_reg (k : RegId) : (s.withInput inp).reg k = s.reg k := rfl
@[simp] theorem State.withInput_a : (s.withInput inp).a = s.a := rfl
@[simp] theorem State.withInput_g : (s.withInput inp).g = s.g := rfl
@[simp] theorem State.withInput_ir : (s.withInput inp).ir = s.ir := rfl
@[simp] theorem State.withInput_status : (s.withInput inp).status = s.status := rfl
@[simp] theorem State.withInput_halt : (s.withInput inp).halt = s.halt := rfl
@[simp] theorem State.withInput_output : (s.withInput inp).output = s.output := rfl
@[simp] theorem State.withInput_pending : (s.withInput inp).pending = inp :: s.pending.tail := rfl
@[simp] theorem State.withInput_tick : (s.withInput inp).tick = s.tick := rfl
@[simp] theorem State.input_withInput : (s.withInput inp).input = inp := rfl
end withInput

section withFetchWord
variable (s : State) (nbits w : Nat)
@[simp] theorem State.withFetchWord_regs : (s.withFetchWord nbits w).regs = s.regs := rfl
@[simp] theorem State.withFetchWord_a : (s.withFetchWord nbits w).a = s.a := rfl
@[simp] theorem State.withFetchWord_g : (s.withFetchWord nbits w).g = s.g := rfl
@[simp] theorem State.withFetchWord_ir : (s.withFetchWord nbits w).ir = BitVec.ofNat 8 (w % 2 ^ nbits) := rfl
@[simp] theorem State.withFetchWord_status : (s.withFetchWord nbits w).status = .t1 := rfl
@[simp] theorem State.withFetchWord_halt : (s.withFetchWord nbits w).halt = .running := rfl
@[simp] theorem State.withFetchWord_output : (s.withFetchWord nbits w).output = s.output := rfl
@[simp] theorem State.withFetchWord_pending : (s.withFetchWord nbits w).pending = s.pending := rfl
@[simp] theorem State.withFetchWord_tick : (s.withFetchWord nbits w).tick = s.tick := rfl
end withFetchWord

section start
variable (init : Init) (inputs : List Input)
@[simp] theorem State.start_regs : (State.start init inputs).regs = init.regs := rfl
@[simp] theorem State.start_a : (State.start init inputs).a = init.a := rfl
@[simp] theorem State.start_g : (State.start init inputs).g = init.g := rfl
@[simp] theorem State.start_ir : (State.start init inputs).ir = init.ir := rfl
@[simp] theorem State.start_status : (State.start init inputs).status = .t0 := rfl
@[simp] theorem State.start_halt : (State.start init inputs).halt = .running := rfl
@[simp] theorem State.start_output : (State.start init inputs).output = none := rfl
@[simp] theorem State.start_pending : (State.start init inputs).pending = inputs := rfl
@[simp] theorem State.start_tick : (State.start init inputs).tick = 0 := rfl
end start

end Sys2Proof.Machine
end

