-- ==== Sys2Proof/Laws/Ops.lean ====
section
/-! SUPPORT. What the shared tick can do, said once: the fields a commit leaves, when a row passes the one-hot
check, and the outcomes of a row's tick. -/

namespace Sys2Proof.Machine

@[simp] theorem latch_true (p c : Word) : latch true p c = p := rfl

@[simp] theorem latch_false (p c : Word) : latch false p c = c := rfl

section commit
variable (row : Signals) (v : Settled) (s : State)

@[simp] theorem commit_reg (k : RegId) :
    (commit row v s).reg k = latch (row.rIn k) v.bus (s.reg k) := by
  cases k <;> rfl

@[simp] theorem commit_a : (commit row v s).a = latch row.aIn v.bus s.a := rfl
@[simp] theorem commit_g : (commit row v s).g = latch row.gIn v.aluOut s.g := rfl
@[simp] theorem commit_ir : (commit row v s).ir = latch row.irIn s.input.din s.ir := rfl
@[simp] theorem commit_status : (commit row v s).status = nextStatus s.status s.input.run v.done := rfl
@[simp] theorem commit_halt : (commit row v s).halt = s.halt := rfl
@[simp] theorem commit_output : (commit row v s).output = some v.done := rfl
@[simp] theorem commit_pending : (commit row v s).pending = s.pending.tail := rfl
@[simp] theorem commit_tick : (commit row v s).tick = s.tick + 1 := rfl

/-- The inputs after a commit are the ones that followed before it. -/
@[simp] theorem commit_inputAt (n : Nat) : (commit row v s).inputAt n = s.inputAt (n + 1) := by
  have e : s.tick + 1 + n = s.tick + (n + 1) := by omega
  cases hp : s.pending <;> simp [State.inputAt, hp, e]

end commit

section settle
variable (row : Signals) (s : State)

@[simp] theorem settle_done : (settle row s).done = row.done := rfl

theorem settle_bus : (settle row s).bus = busWord (Config.dontcareBus s.tick) row.busSel s := rfl

theorem settle_aluOut :
    (settle row s).aluOut =
      alu (row.mode.resolve (Config.dontcareMode s.tick)) s.a (settle row s).bus := rfl

end settle

@[simp] theorem Signals.rIn_latching (row : Signals) (k j : RegId) :
    (row.latching k).rIn j = decide (k = j) := by
  cases j <;> rfl

@[simp] theorem Signals.rIn_onBus (sel : BusSel) (j : RegId) : (Signals.onBus sel).rIn j = false := by
  cases j <;> rfl

/-- Naming one register's enable is one-hot. -/
@[simp] theorem Signals.oneHot_latching (row : Signals) (k : RegId) : (row.latching k).oneHot = true := by
  cases k <;> rfl

/-- The outcomes of a row's tick: a commit of that row, or one of two halts. -/
theorem runRow_cases {row : Option Signals} {s t : State} (h : runRow row s = .next t) :
    (∃ r, row = some r ∧ r.oneHot = true ∧ t = commit r (settle r s) s) ∨
    (∃ r, row = some r ∧ r.oneHot = false ∧ t = s.haltedBy .multipleLatchEnableAsserted) ∨
    (row = none ∧ t = s.haltedBy .unreachableDecodeRow) := by
  cases row with
  | none => cases h; exact .inr (.inr ⟨rfl, rfl⟩)
  | some r =>
    cases hr : r.oneHot with
    | true =>
      simp only [runRow, hr, if_true] at h
      cases h
      exact .inl ⟨r, rfl, hr, rfl⟩
    | false =>
      simp only [runRow, hr, Bool.false_eq_true, if_false] at h
      cases h
      exact .inr (.inl ⟨r, rfl, hr, rfl⟩)

/-- A row that passes the check commits. -/
theorem runRow_oneHot {r : Signals} {s : State} (h : r.oneHot = true) :
    runRow (some r) s = .next (commit r (settle r s) s) := by
  simp [runRow, h]

/-- The outcomes of a tick: it took the decoded instruction's tick, or halted at the decode. -/
theorem runTick_cases {dispatch : Instr → State → Result} {s t : State}
    (h : runTick dispatch s = .next t) :
    s.halt = .running ∧
      ((∃ i, decode s.ir = .ok i ∧ dispatch i s = .next t) ∨
       (∃ e, decode s.ir = .error e ∧ t = s.haltedBy .ambiguousOrUndecodable)) := by
  unfold runTick at h
  split at h
  · cases h
  · rename_i hr
    split at h
    · rename_i e he
      cases h
      exact ⟨hr, .inr ⟨e, he, rfl⟩⟩
    · rename_i i hi
      exact ⟨hr, .inl ⟨i, hi, h⟩⟩

end Sys2Proof.Machine
end

