-- ==== Sys2Proof/Laws/PerInstr.lean ====
section
/-! SUPPORT. Per-instruction laws over the syntax: under every opcode assignment, an instruction's word carries its
opcode and its two register fields where 30_encoding.md R71 puts them. -/

namespace Sys2Proof.Laws.FieldsOfEncoding

/-- The fields of an instruction's word are its opcode and its register operands (30_encoding.md R71, R78). -/
def Statement (i : Instr) : Prop :=
  ∀ oc : Opcodes,
    opField (encodeWith oc i) = oc.of i ∧ rxField (encodeWith oc i) = i.rx ∧
      ryField (encodeWith oc i) = i.ryOrCanonical

theorem mv (rx ry : RegId) : Statement (.mv rx ry) := fun oc => by simp [encodeWith]

theorem mvi (rx : RegId) : Statement (.mvi rx) := fun oc => by simp [encodeWith]

theorem add (rx ry : RegId) : Statement (.add rx ry) := fun oc => by simp [encodeWith]

theorem sub (rx ry : RegId) : Statement (.sub rx ry) := fun oc => by simp [encodeWith]

end Sys2Proof.Laws.FieldsOfEncoding
end

