-- ==== Sys2Proof/Tests/Slice0.lean ====
section
/-! SUPPORT. Small tests, each with its source in spec/, and for every statement that has hypotheses a state that meets
them (test_witness_<statement>). Expected values are the spec's own examples (95_test_vectors.md) or hand calculation
from its rules. -/

namespace Sys2Proof.Tests

open Machine

/-- A running block with four different registers, one settled input. -/
def blk (ir : Word) (st : Status) (inp : Input) : State where
  regs := ⟨0x10, 0x20, 0x30, 0x40⟩
  a := 0x05
  g := 0x77
  ir := ir
  status := st
  halt := .running
  output := none
  pending := [inp]
  tick := 0

/-- The registers of `blk` and its A and G replaced. -/
def blkWith (r : Regs) (a g : Word) (ir : Word) (st : Status) (inp : Input) : State :=
  { blk ir st inp with regs := r, a := a, g := g }

/-- What the environment sees of a tick: the snapshot, the halt mark and `done`. -/
def seen (r : Result) : Option (Snapshot × HaltMark × Option Bool) :=
  match r with
  | .next t => some (t.snapshot, t.halt, t.output)
  | .fault _ => none
  | .refused _ => none

/-! ### WellFormed: an ill-formed term for each check -/

theorem test_distinct_refuses_equal_opcodes : Opcodes.distinct ⟨0, 1, 2, 1⟩ = false := by decide

theorem test_distinct_accepts_spec_opcodes : opcodes.distinct = true := by decide

theorem test_asm_refuses_data_after_mv : AsmLine.wellFormed ⟨.mv .r0 .r1, some 5⟩ = false := by decide

theorem test_asm_refuses_mvi_without_data : AsmLine.wellFormed ⟨.mvi .r0, none⟩ = false := by decide

theorem test_asm_refuses_data_after_add : AsmLine.wellFormed ⟨.add .r0 .r1, some 5⟩ = false := by decide

theorem test_asm_refuses_data_after_sub : AsmLine.wellFormed ⟨.sub .r0 .r1, some 5⟩ = false := by decide

/-! ### Decode and encode: words written out bit by bit (30_encoding.md R73, R80; 95_test_vectors.md E2, V1) -/

theorem test_decode_mv : decode 0b0000_11_10#8 = .ok (.mv .r3 .r2) := by decide

theorem test_decode_mvi : decode 0b0001_11_00#8 = .ok (.mvi .r3) := by decide

theorem test_decode_mvi_low_bits : decode 0b0001_10_11#8 = .ok (.mvi .r2) := by decide

theorem test_decode_add : decode 0b0010_11_10#8 = .ok (.add .r3 .r2) := by decide

theorem test_decode_sub : decode 0b0011_10_11#8 = .ok (.sub .r2 .r3) := by decide

theorem test_decode_refuses_opcode_0100 :
    decode 0b0100_00_00#8 = .error (.ambiguousOrUndecodable 0x40#8) := by decide

theorem test_decode_refuses_opcode_1000 :
    decode 0b1000_11_00#8 = .error (.ambiguousOrUndecodable 0x8C#8) := by decide

theorem test_encode_mv : encode (.mv .r2 .r1) = 0x09#8 := by decide

theorem test_encode_mvi : encode (.mvi .r1) = 0x14#8 := by decide

theorem test_encode_add : encode (.add .r3 .r0) = 0x2C#8 := by decide

theorem test_encode_sub : encode (.sub .r1 .r1) = 0x35#8 := by decide

/-- The opcode table's `mvi` row, operand bits zero. -/
theorem test_decodeTableWord_mvi : decodeTableWord 8 0x10 = some (.mvi .r0) := by decide

theorem test_decodeTableWord_refuses : decodeTableWord 8 0x40 = none := by decide

/-- 30_encoding.md R83: `mvi r3, 0x7F` puts 0x1C, then 0x7F on `din` (41_move.md R153, example). -/
theorem test_asm_words : AsmLine.words ⟨.mvi .r3, some 0x7F⟩ = [0x1C, 0x7F] := by decide

/-- 30_encoding.md R83, for the line of 42_arith.md R170's example. -/
theorem test_asm_text : AsmLine.text ⟨.add .r0 .r1, none⟩ = "add r0, r1" := by decide

/-! ### Datapath (95_test_vectors.md V2, V3, V4) -/

theorem test_alu_add_wraps : alu false 0xC8 0x64 = 0x2C := by decide

theorem test_alu_sub_wraps : alu true 0x03 0x05 = 0xFE := by decide

theorem test_bus_sources :
    busWord 0 (.reg .r0) (blk 0 .t0 ⟨false, 0xAB⟩) = 0x10 ∧ busWord 0 (.reg .r3) (blk 0 .t0 ⟨false, 0xAB⟩) = 0x40 ∧
    busWord 0 .din (blk 0 .t0 ⟨false, 0xAB⟩) = 0xAB ∧ busWord 0 .g (blk 0 .t0 ⟨false, 0xAB⟩) = 0x77 := by decide

theorem test_next_status :
    nextStatus .t0 true false = .t1 ∧ nextStatus .t1 false true = .t0 ∧ nextStatus .t2 true false = .t3 ∧
    nextStatus .t3 true false = .t3 := by decide

/-! ### One tick at a time -/

/-- 95_test_vectors.md E5, tick 1: the fetch tick loads IR and nothing else. -/
theorem test_fetch :
    seen (step (blk 0x00 .t0 ⟨true, 0x21⟩)) =
      some (⟨0x10, 0x20, 0x30, 0x40, 0x05, 0x77, 0x21, .t1⟩, .running, some false) := by decide

/-- 95_test_vectors.md V11: an idle tick stays at T0 and reloads IR. -/
theorem test_idle :
    seen (step (blk 0x00 .t0 ⟨false, 0x3F⟩)) =
      some (⟨0x10, 0x20, 0x30, 0x40, 0x05, 0x77, 0x3F, .t0⟩, .running, some false) := by decide

/-- 95_test_vectors.md E3, tick 2: word 0x01, R0 = 0x11, R1 = 0x22. -/
theorem test_mv :
    seen (step (blkWith ⟨0x11, 0x22, 0, 0⟩ 1 2 0x01 .t1 ⟨true, 0xFF⟩)) =
      some (⟨0x22, 0x22, 0, 0, 1, 2, 0x01, .t0⟩, .running, some true) := by decide

/-- 95_test_vectors.md V6: `mv r2, r2` leaves every general register. -/
theorem test_mv_same_register :
    seen (step (blk 0x0A .t1 ⟨false, 0⟩)) =
      some (⟨0x10, 0x20, 0x30, 0x40, 0x05, 0x77, 0x0A, .t0⟩, .running, some true) := by decide

/-- 95_test_vectors.md E4, tick 2: word 0x18, data 0x9C. -/
theorem test_mvi :
    seen (step (blk 0x18 .t1 ⟨false, 0x9C⟩)) =
      some (⟨0x10, 0x20, 0x9C, 0x40, 0x05, 0x77, 0x18, .t0⟩, .running, some true) := by decide

/-- 95_test_vectors.md V7: wildcard bits 11, data 0xFF is not decoded. -/
theorem test_mvi_undecodable_data :
    seen (step (blk 0x13 .t1 ⟨true, 0xFF⟩)) =
      some (⟨0xFF, 0x20, 0x30, 0x40, 0x05, 0x77, 0x13, .t0⟩, .running, some true) := by decide

/-- 95_test_vectors.md E5, tick 3: A = 5, R1 = 3, G takes 8. -/
theorem test_add_t2 :
    seen (step (blkWith ⟨5, 3, 0, 0⟩ 5 0 0x21 .t2 ⟨false, 0xFF⟩)) =
      some (⟨5, 3, 0, 0, 5, 8, 0x21, .t3⟩, .running, some false) := by decide

/-- 95_test_vectors.md V5: Add's T3 tick with rx = R2, R2 = 0x01, G = 0x09. -/
theorem test_add_t3 :
    seen (step (blkWith ⟨0, 0, 1, 0⟩ 0 9 0x28 .t3 ⟨true, 0xFF⟩)) =
      some (⟨0, 0, 9, 0, 0, 9, 0x28, .t0⟩, .running, some true) := by decide

/-- 95_test_vectors.md P2, tick 6: A takes R[rx], not R[ry]. -/
theorem test_sub_t1 :
    seen (step (blkWith ⟨0, 0, 3, 5⟩ 0 0 0x3B .t1 ⟨true, 0xFF⟩)) =
      some (⟨0, 0, 3, 5, 3, 0, 0x3B, .t2⟩, .running, some false) := by decide

/-- 95_test_vectors.md V9: 3 - 5 at T2 gives 0xFE. -/
theorem test_sub_t2 :
    seen (step (blkWith ⟨0, 0, 3, 5⟩ 3 0 0x3B .t2 ⟨true, 0xFF⟩)) =
      some (⟨0, 0, 3, 5, 3, 0xFE, 0x3B, .t3⟩, .running, some false) := by decide

/-- 95_test_vectors.md V10: an undecodable IR halts at T0 and commits nothing. -/
theorem test_halt_undecodable :
    seen (step (blk 0xF0 .t0 ⟨true, 0x00⟩)) =
      some (⟨0x10, 0x20, 0x30, 0x40, 0x05, 0x77, 0xF0, .t0⟩,
        .halted .ambiguousOrUndecodable ⟨0xF0, .t0⟩, none) := by decide

/-- 95_test_vectors.md V10: Mv at T2, unreachable, halts. -/
theorem test_halt_unreachable_row :
    seen (step (blk 0x05 .t2 ⟨true, 0x00⟩)) =
      some (⟨0x10, 0x20, 0x30, 0x40, 0x05, 0x77, 0x05, .t2⟩,
        .halted .unreachableDecodeRow ⟨0x05, .t2⟩, none) := by decide

/-- 40_tick_and_control.md R116: a vector with two enables asserted halts before any commit. -/
theorem test_halt_two_enables :
    seen (runRow (some { fetchRow with r0In := true, r3In := true }) (blk 0x05 .t1 ⟨true, 0⟩)) =
      some (⟨0x10, 0x20, 0x30, 0x40, 0x05, 0x77, 0x05, .t1⟩,
        .halted .multipleLatchEnableAsserted ⟨0x05, .t1⟩, none) := by decide

/-- 60_exceptions.md R200: the codes. -/
theorem test_halt_codes :
    HaltKind.code .ambiguousOrUndecodable = 1 ∧ HaltKind.code .multipleLatchEnableAsserted = 2 ∧
    HaltKind.code .unreachableDecodeRow = 3 := by decide

/-- 95_test_vectors.md E5, tick 2: the wires show bus = 5 and `a_in`; at T0 the bus is unconstrained. -/
theorem test_wires :
    (blkWith ⟨5, 3, 0, 0⟩ 0 0 0x21 .t1 ⟨false, 0⟩).wires.map (fun w => (w.bus, w.signals.aIn)) = some (some 5, true) ∧
    (blk 0x21 .t0 ⟨false, 0⟩).wires.map (fun w => w.bus) = some none := by decide

/-- A word placed on the reset state is what the very next step runs: `mv r0, r0` retires (41_move.md R150). -/
theorem test_reset_runs_placed_word :
    (seen (step (State.reset.withFetchWord 8 0x00))).map (fun x => x.2.2) = some (some true) := by decide

/-! ### Witnesses: each statement's hypotheses can be met -/

theorem test_witness_GeneralRegistersLatchOnlyTheBus :
    (∃ t, step (blk 0x01 .t1 ⟨true, 0⟩) = .next t ∧ t.reg .r0 ≠ (blk 0x01 .t1 ⟨true, 0⟩).reg .r0) ∧
    fetchRow.busSel ≠ .reg .r3 := ⟨⟨_, rfl, by decide⟩, by decide⟩

theorem test_witness_ResultBufferLatchesTheAlu :
    (∃ t, step (blk 0x21 .t2 ⟨true, 0⟩) = .next t ∧ t.g ≠ (blk 0x21 .t2 ⟨true, 0⟩).g) ∧
    (Signals.onBus .g).busSel = .g := ⟨⟨_, rfl, by decide⟩, by decide⟩

theorem test_witness_OperandBufferLatchesTheBus :
    (∃ t, step (blk 0x21 .t1 ⟨true, 0⟩) = .next t ∧ t.a ≠ (blk 0x21 .t1 ⟨true, 0⟩).a) ∧
    (∃ row, rowAdd .r0 .r1 .t2 = some row ∧ row.mode = .add) ∧
    (∃ row, rowSub .r0 .r1 .t2 = some row ∧ row.mode = .subtract) :=
  ⟨⟨_, rfl, by decide⟩, ⟨_, rfl, by decide⟩, ⟨_, rfl, by decide⟩⟩

theorem test_witness_committed_T0_tick :
    ∃ t, step (blk 0x00 .t0 ⟨true, 0x21⟩) = .next t ∧ t.halt = .running ∧ (blk 0x00 .t0 ⟨true, 0x21⟩).status = .t0 :=
  ⟨_, rfl, by decide, by decide⟩

theorem test_witness_committed_T1_tick :
    ∃ t, step (blk 0x01 .t1 ⟨true, 0⟩) = .next t ∧ t.halt = .running ∧ (blk 0x01 .t1 ⟨true, 0⟩).status ≠ .t0 :=
  ⟨_, rfl, by decide, by decide⟩

theorem test_witness_halting_tick_undecodable :
    ∃ t, step (blk 0x40 .t1 ⟨true, 0⟩) = .next t ∧ t.halt ≠ .running :=
  ⟨_, rfl, by decide⟩

theorem test_witness_halting_tick_no_row :
    ∃ t, step (blk 0x10 .t3 ⟨true, 0⟩) = .next t ∧ t.halt ≠ .running :=
  ⟨_, rfl, by decide⟩

theorem test_witness_StatusChangesOnlyByTheTransition :
    ∃ t, step (blk 0x00 .t0 ⟨false, 0x21⟩) = .next t ∧ t.halt = .running ∧
      t.status = (blk 0x00 .t0 ⟨false, 0x21⟩).status := ⟨_, rfl, by decide, by decide⟩

theorem test_witness_FetchTickOfEveryInstruction : (blk 0x00 .t0 ⟨true, 0x21⟩).status = .t0 := by decide

theorem test_witness_MvTickCopiesTheRegister : (blk 0x01 .t1 ⟨true, 0⟩).status = .t1 := by decide

theorem test_witness_MviTickLoadsTheInput : (blk 0x10 .t1 ⟨true, 0⟩).status = .t1 := by decide

theorem test_witness_AddTicksComputeTheSum : (blk 0x2F .t1 ⟨true, 0⟩).status = .t1 := by decide

theorem test_witness_SubTicksComputeTheDifference : (blk 0x3F .t1 ⟨true, 0⟩).status = .t1 := by decide

theorem test_witness_ArithmeticOnOneRegister : (blk 0x35 .t1 ⟨true, 0⟩).status = .t1 := by decide

theorem test_witness_MovesWithoutARowHalt :
    (Instr.mv .r0 .r1).isMove = true ∧ (blk 0x01 .t2 ⟨true, 0⟩).status = .t2 ∧
    (Instr.mvi .r0).isMove = true ∧ (blk 0x10 .t3 ⟨true, 0⟩).status = .t3 := by decide

theorem test_witness_DecodeTableRows :
    (Instr.sub .r0 .r1 = .add .r0 .r1 ∨ Instr.sub .r0 .r1 = .sub .r0 .r1) ∧
    table (blk 0x3F .t3 ⟨true, 0⟩).status (.sub .r3 .r3) ≠ none := by decide

theorem test_witness_OneHotLatchEnables :
    (∃ row, table .t1 (.mv .r0 .r1) = some row ∧ row.rIn .r0 = true) ∧
    (∃ t, (blk 0x01 .t1 ⟨true, 0⟩).halt = .running ∧ exec (.mv .r0 .r1) (blk 0x01 .t1 ⟨true, 0⟩) = .next t) :=
  ⟨⟨_, rfl, by decide⟩, ⟨_, by decide, rfl⟩⟩

theorem test_witness_DontcareDrawsReachNoState : table .t0 (.mv .r0 .r0) = some fetchRow := by decide

theorem test_witness_DrawnWiresAreUnconstrained :
    (∃ w, (blk 0x21 .t0 ⟨true, 0⟩).wires = some w ∧ w.bus = none) ∧
    (∃ w, (blk 0x21 .t2 ⟨true, 0⟩).wires = some w ∧ w.bus = some 0x20 ∧ w.aluOut = some 0x25) ∧
    (∃ row, (blk 0x21 .t2 ⟨true, 0⟩).halt = .running ∧ decode (blk 0x21 .t2 ⟨true, 0⟩).ir = .ok (.add .r0 .r1) ∧
      table (blk 0x21 .t2 ⟨true, 0⟩).status (.add .r0 .r1) = some row) :=
  ⟨⟨_, rfl, by decide⟩, ⟨_, rfl, by decide, by decide⟩, ⟨_, by decide, by decide, rfl⟩⟩

theorem test_witness_StepRunsTheDecodedInstruction :
    (blk 0x21 .t2 ⟨true, 0⟩).halt = .running ∧ decode (blk 0x21 .t2 ⟨true, 0⟩).ir = .ok (.add .r0 .r1) := by decide

theorem test_witness_UndecodableWordHalts :
    (blk 0xFF .t3 ⟨true, 0⟩).halt = .running ∧ decodable (blk 0xFF .t3 ⟨true, 0⟩).ir = false := by decide

theorem test_witness_HaltedBlockTakesNoTick :
    ((blk 0xFF .t0 ⟨true, 0⟩).haltedBy .ambiguousOrUndecodable).halt =
      .halted .ambiguousOrUndecodable ⟨0xFF, .t0⟩ := by decide

theorem test_witness_RunIsReadOnlyAtT0 : (blk 0x01 .t1 ⟨true, 0⟩).status ≠ .t0 := by decide

theorem test_witness_InputsAreIgnoredElsewhere :
    (blk 0x10 .t2 ⟨true, 0⟩).status ≠ .t0 ∧
      ((blk 0x10 .t2 ⟨true, 0⟩).status = .t1 → ∀ rx, decode (blk 0x10 .t2 ⟨true, 0⟩).ir ≠ .ok (.mvi rx)) ∧
    (blk 0x21 .t1 ⟨true, 0⟩).status ≠ .t0 ∧
      ((blk 0x21 .t1 ⟨true, 0⟩).status = .t1 → ∀ rx, decode (blk 0x21 .t1 ⟨true, 0⟩).ir ≠ .ok (.mvi rx)) :=
  ⟨by decide, fun h => absurd h (by decide), by decide, fun _ rx h => by cases rx <;> revert h <;> decide⟩

theorem test_witness_TickDependsOnlyOnStateAndInputs :
    let s := blk 0x00 .t0 ⟨true, 0x21⟩
    let s' := { s with output := some true, pending := [⟨true, 0x21⟩, ⟨false, 0x40⟩], tick := 9 }
    s.snapshot = s'.snapshot ∧ s.halt = s'.halt ∧ s.input = s'.input ∧ ∃ t, step s = .next t :=
  ⟨by decide, by decide, by decide, _, rfl⟩

theorem test_witness_InvariantKeptByEveryStep :
    RunInvariant (blkWith ⟨5, 3, 0, 0⟩ 5 0 0x21 .t2 ⟨true, 0⟩) ∧
    ∃ t, step (blkWith ⟨5, 3, 0, 0⟩ 5 0 0x21 .t2 ⟨true, 0⟩) = .next t :=
  ⟨⟨⟨.r0, .r1, .inl (by decide), by decide⟩, fun _ _ h => by cases h⟩, _, rfl⟩

theorem test_witness_InvariantHoldsInEveryRun :
    ∃ t, ticks 1 (State.start Init.zero [⟨true, 0x21⟩]) = .next t := ⟨_, rfl⟩

theorem test_witness_DutyKeepsTheBlockRunning :
    RunInvariant (blk 0x00 .t0 ⟨true, 0x21⟩) ∧ (blk 0x00 .t0 ⟨true, 0x21⟩).halt = .running ∧
    decodable (blk 0x00 .t0 ⟨true, 0x21⟩).ir = true ∧ EnvironmentDuty (blk 0x00 .t0 ⟨true, 0x21⟩) :=
  ⟨⟨trivial, fun _ _ h => by cases h⟩, by decide, by decide, fun _ => by decide⟩

theorem test_witness_UndecodableFetchHaltsOneTickLater :
    Ready (blk 0x00 .t0 ⟨false, 0x40⟩) ∧ decodable (blk 0x00 .t0 ⟨false, 0x40⟩).input.din = false :=
  ⟨⟨rfl, rfl, by decide⟩, by decide⟩

theorem test_witness_IdleTickReloadsOnlyIR :
    Ready (blk 0x00 .t0 ⟨false, 0x14⟩) ∧ (blk 0x00 .t0 ⟨false, 0x14⟩).input.run = false :=
  ⟨⟨rfl, rfl, by decide⟩, by decide⟩

theorem test_witness_MvEndState :
    Ready (blk 0x00 .t0 ⟨true, 0x09⟩) ∧ (blk 0x00 .t0 ⟨true, 0x09⟩).inputAt 0 = ⟨true, 0x09⟩ ∧
    decode 0x09#8 = .ok (.mv .r2 .r1) := ⟨⟨rfl, rfl, by decide⟩, by decide, by decide⟩

theorem test_witness_MviEndState :
    Ready (blk 0x00 .t0 ⟨true, 0x13⟩) ∧ (blk 0x00 .t0 ⟨true, 0x13⟩).inputAt 0 = ⟨true, 0x13⟩ ∧
    decode 0x13#8 = .ok (.mvi .r0) := ⟨⟨rfl, rfl, by decide⟩, by decide, by decide⟩

theorem test_witness_AddEndState :
    Ready (blk 0x00 .t0 ⟨true, 0x2F⟩) ∧ (blk 0x00 .t0 ⟨true, 0x2F⟩).inputAt 0 = ⟨true, 0x2F⟩ ∧
    decode 0x2F#8 = .ok (.add .r3 .r3) := ⟨⟨rfl, rfl, by decide⟩, by decide, by decide⟩

theorem test_witness_SubEndState :
    Ready (blk 0x00 .t0 ⟨true, 0x3B⟩) ∧ (blk 0x00 .t0 ⟨true, 0x3B⟩).inputAt 0 = ⟨true, 0x3B⟩ ∧
    decode 0x3B#8 = .ok (.sub .r2 .r3) := ⟨⟨rfl, rfl, by decide⟩, by decide, by decide⟩

theorem test_witness_InstructionRetiresExactlyOnce :
    Ready (blk 0x00 .t0 ⟨true, 0x21⟩) ∧ (blk 0x00 .t0 ⟨true, 0x21⟩).inputAt 0 = ⟨true, 0x21⟩ ∧
    decode 0x21#8 = .ok (.add .r0 .r1) ∧ 0 < 3 ∧ 3 < (Instr.add .r0 .r1).latency :=
  ⟨⟨rfl, rfl, by decide⟩, by decide, by decide, by decide, by decide⟩

theorem test_witness_BackToBackThroughput :
    let prog : List (AsmLine × Word) := [(⟨.mvi .r1, some 0xFF⟩, 0), (⟨.add .r2 .r1, none⟩, 7)]
    let s := State.start Init.zero (programInputs prog ++ [⟨false, 0⟩])
    Ready s ∧ s.pending = programInputs prog ++ [⟨false, 0⟩] ∧ prog ≠ [] :=
  ⟨⟨rfl, rfl, by decide⟩, rfl, by decide⟩

theorem test_witness_opcode_assignments :
    Opcodes.distinct ⟨9, 4, 0, 15⟩ = true ∧ opcodes.distinct = true := by decide

theorem test_witness_EncodeDecodeGivesTheCanonicalWord :
    decodeWith opcodes 0x13#8 = .ok (.mvi .r0) ∧ decodeWith opcodes 0x3B#8 = .ok (.sub .r2 .r3) := by decide

theorem test_witness_AssemblerLineWords :
    AsmLine.wellFormed ⟨.mvi .r3, some 0x7F⟩ = true ∧ AsmLine.wellFormed ⟨.add .r0 .r1, none⟩ = true := by decide

end Sys2Proof.Tests
end

/-! Decoding by opcode, and the round trip from an instruction to its word and back (00_scope.md R7;
30_encoding.md R76, R78). -/

namespace Sys2Proof

theorem Opcodes.distinct_iff (oc : Opcodes) :
    oc.distinct = true ↔ oc.mv ≠ oc.mvi ∧ oc.mv ≠ oc.add ∧ oc.mv ≠ oc.sub ∧
      oc.mvi ≠ oc.add ∧ oc.mvi ≠ oc.sub ∧ oc.add ≠ oc.sub :=
  decide_eq_true_iff

/-! Under distinct opcodes the order in which the variants are tried does not matter: the opcode field alone picks
the variant. Mv is tried first, so it needs no distinctness. -/

section decodeWith
variable {oc : Opcodes} {w : Word}

theorem decodeWith_of_opField_mv (hop : opField w = oc.mv) :
    decodeWith oc w = .ok (.mv (rxField w) (ryField w)) :=
  if_pos hop

theorem decodeWith_of_opField_mvi (hd : oc.distinct = true) (hop : opField w = oc.mvi) :
    decodeWith oc w = .ok (.mvi (rxField w)) := by
  obtain ⟨hmv, -⟩ := oc.distinct_iff.mp hd
  simp [decodeWith, hop, hmv.symm]

theorem decodeWith_of_opField_add (hd : oc.distinct = true) (hop : opField w = oc.add) :
    decodeWith oc w = .ok (.add (rxField w) (ryField w)) := by
  obtain ⟨-, hmv, -, hmvi, -⟩ := oc.distinct_iff.mp hd
  simp [decodeWith, hop, hmv.symm, hmvi.symm]

theorem decodeWith_of_opField_sub (hd : oc.distinct = true) (hop : opField w = oc.sub) :
    decodeWith oc w = .ok (.sub (rxField w) (ryField w)) := by
  obtain ⟨-, -, hmv, -, hmvi, hadd⟩ := oc.distinct_iff.mp hd
  simp [decodeWith, hop, hmv.symm, hmvi.symm, hadd.symm]

end decodeWith

theorem decodeWith_encodeWith {oc : Opcodes} (hd : oc.distinct = true) (i : Instr) :
    decodeWith oc (encodeWith oc i) = .ok i := by
  cases i with
  | mv rx ry =>
    obtain ⟨hop, hrx, hry⟩ := Laws.FieldsOfEncoding.mv rx ry oc
    rw [decodeWith_of_opField_mv hop, hrx, hry]
    rfl
  | mvi rx =>
    obtain ⟨hop, hrx, -⟩ := Laws.FieldsOfEncoding.mvi rx oc
    rw [decodeWith_of_opField_mvi hd hop, hrx]
    rfl
  | add rx ry =>
    obtain ⟨hop, hrx, hry⟩ := Laws.FieldsOfEncoding.add rx ry oc
    rw [decodeWith_of_opField_add hd hop, hrx, hry]
    rfl
  | sub rx ry =>
    obtain ⟨hop, hrx, hry⟩ := Laws.FieldsOfEncoding.sub rx ry oc
    rw [decodeWith_of_opField_sub hd hop, hrx, hry]
    rfl

/-- Settles O40: the four opcodes pick the variant and its fields carry the operands; the spec's own assignment is
one of the distinct ones. -/
theorem decodeEncodeUnderEveryOpcodeAssignment : Obligations.DecodeEncodeUnderEveryOpcodeAssignment :=
  ⟨fun _ hd i => decodeWith_encodeWith hd i,
   fun i => decodeWith_encodeWith (oc := opcodes) (by decide) i⟩

end Sys2Proof

/-! The rows of the decode table by shape: what any row latches, draws and retires (40_tick_and_control.md R112, R116,
R120). -/

namespace Sys2Proof.Machine

/-- A row as the table has it in a Status, whichever instruction it belongs to (40_tick_and_control.md R112). -/
inductive RowShape : Status → Signals → Prop where
  | fetch : RowShape .t0 fetchRow
  | move (sel : BusSel) (rx : RegId) (hsel : sel ≠ .dontcare) :
      RowShape .t1 { (Signals.onBus sel).latching rx with done := true }
  | operand (rx : RegId) : RowShape .t1 { Signals.onBus (.reg rx) with aIn := true }
  | result (ry : RegId) (mode : ModeSignal) (hmode : mode ≠ .dontcare) :
      RowShape .t2 { Signals.onBus (.reg ry) with gIn := true, mode := mode }
  | writeBack (rx : RegId) : RowShape .t3 { (Signals.onBus .g).latching rx with done := true }

theorem rowShape_of_table {st : Status} {i : Instr} {row : Signals} (h : table st i = some row) :
    RowShape st row := by
  cases i with
  | mv rx ry => cases st <;> cases h; exacts [.fetch, .move (.reg ry) rx nofun]
  | mvi rx => cases st <;> cases h; exacts [.fetch, .move .din rx nofun]
  | add rx ry =>
    cases st <;> cases h
    exacts [.fetch, .operand rx, .result ry _ nofun, .writeBack rx]
  | sub rx ry =>
    cases st <;> cases h
    exacts [.fetch, .operand rx, .result ry _ nofun, .writeBack rx]

namespace RowShape
variable {st : Status} {row : Signals}

theorem oneHot (h : RowShape st row) : row.oneHot = true := by
  cases h with
  | fetch => rfl
  | move sel rx _ => exact Signals.oneHot_latching (Signals.onBus sel) rx
  | operand => rfl
  | result => rfl
  | writeBack rx => exact Signals.oneHot_latching (Signals.onBus .g) rx

/-- IR is latched in the fetch tick alone. -/
theorem irIn_iff (h : RowShape st row) : row.irIn = true ↔ st = .t0 := by
  cases h with
  | fetch => exact iff_of_true rfl rfl
  | move | operand | result | writeBack => exact iff_of_false nofun nofun

/-- Outside T0, Status moves on in every committed tick: Status T3 could only stay under `done` = 0, and the T3 row
retires. -/
theorem status_eq_t0_of_nextStatus_eq (h : RowShape st row) {run : Bool}
    (hstay : nextStatus st run row.done = st) : st = .t0 := by
  cases h with
  | fetch => rfl
  | move | operand | result | writeBack => cases hstay

end RowShape

/-- No register latches a don't-care draw: what takes the bus has a bus source, and what takes the ALU's output has a
mode too (40_tick_and_control.md R120). -/
structure Signals.LatchesNoDraw (row : Signals) : Prop where
  reg (k : RegId) : row.rIn k = true → row.busSel ≠ .dontcare
  a : row.aIn = true → row.busSel ≠ .dontcare
  g : row.gIn = true → row.busSel ≠ .dontcare ∧ row.mode ≠ .dontcare

theorem RowShape.latchesNoDraw {st : Status} {row : Signals} (h : RowShape st row) : row.LatchesNoDraw := by
  cases h with
  | fetch => exact ⟨fun k hk => absurd hk (by cases k <;> decide), nofun, nofun⟩
  | move _ _ hsel => exact ⟨fun _ _ => hsel, fun _ => hsel, nofun⟩
  | operand => exact ⟨fun _ _ => nofun, fun _ => nofun, nofun⟩
  | result _ _ hmode => exact ⟨fun _ _ => nofun, nofun, fun _ => ⟨nofun, hmode⟩⟩
  | writeBack => exact ⟨fun _ _ => nofun, fun _ => nofun, nofun⟩

end Sys2Proof.Machine

/-! What a step can do, said once: commit the row of the decoded instruction, or halt (40_tick_and_control.md R101;
60_exceptions.md R200, R206). -/

namespace Sys2Proof.Machine

theorem exec_eq_runRow (i : Instr) (s : State) : exec i s = runRow (table s.status i) s := by
  cases i <;> rfl

section step
variable {s t : State} {i : Instr} {row : Signals}

theorem step_of_halted {kind : HaltKind} {info : HaltInfo} (h : s.halt = .halted kind info) :
    step s = .fault (.tickAfterHalt kind info) := by
  simp [step, runTick, h]

theorem step_of_decode_error {e : DecodeError} (hrun : s.halt = .running) (hdec : decode s.ir = .error e) :
    step s = .next (s.haltedBy .ambiguousOrUndecodable) := by
  simp [step, runTick, hrun, hdec, raiseHalt]

theorem step_of_decode_ok (hrun : s.halt = .running) (hdec : decode s.ir = .ok i) :
    step s = runRow (table s.status i) s := by
  simp [step, runTick, hrun, hdec, exec_eq_runRow]

theorem step_of_row (hrun : s.halt = .running) (hdec : decode s.ir = .ok i) (hrow : table s.status i = some row) :
    step s = .next (commit row (settle row s) s) := by
  rw [step_of_decode_ok hrun hdec, hrow, runRow_oneHot (rowShape_of_table hrow).oneHot]

theorem step_of_no_row (hrun : s.halt = .running) (hdec : decode s.ir = .ok i) (hrow : table s.status i = none) :
    step s = .next (s.haltedBy .unreachableDecodeRow) := by
  rw [step_of_decode_ok hrun hdec, hrow]
  rfl

/-- The outcomes of a step that answers: only a running block steps, and no row of the table fails the one-hot check,
so it commits the row or halts at the decode or the table. -/
theorem step_cases (h : step s = .next t) :
    s.halt = .running ∧
      ((∃ i row, decode s.ir = .ok i ∧ table s.status i = some row ∧ t = commit row (settle row s) s) ∨
       (∃ e, decode s.ir = .error e ∧ t = s.haltedBy .ambiguousOrUndecodable) ∨
       (∃ i, decode s.ir = .ok i ∧ table s.status i = none ∧ t = s.haltedBy .unreachableDecodeRow)) := by
  obtain ⟨hrun, ⟨i, hdec, hexec⟩ | herr⟩ := runTick_cases h
  · refine ⟨hrun, ?_⟩
    cases hrow : table s.status i with
    | none =>
      cases h.symm.trans (step_of_no_row hrun hdec hrow)
      exact .inr (.inr ⟨i, hdec, hrow, rfl⟩)
    | some row =>
      cases h.symm.trans (step_of_row hrun hdec hrow)
      exact .inl ⟨i, row, hdec, hrow, rfl⟩
  · exact ⟨hrun, .inr (.inl herr)⟩

/-- The two answers of a step apart from the cause of a halt: a committed row, still running, or a halt. -/
theorem step_committed_or_halted (h : step s = .next t) :
    (∃ i row, decode s.ir = .ok i ∧ table s.status i = some row ∧ t = commit row (settle row s) s ∧
      t.halt = .running) ∨
    (∃ kind, t = s.haltedBy kind ∧ t.halt ≠ .running) := by
  obtain ⟨hrun, ⟨i, row, hdec, hrow, rfl⟩ | ⟨_, _, rfl⟩ | ⟨_, _, _, rfl⟩⟩ := step_cases h
  · exact .inl ⟨i, row, hdec, hrow, rfl, hrun⟩
  · exact .inr ⟨_, rfl, nofun⟩
  · exact .inr ⟨_, rfl, nofun⟩

theorem step_commits_of_running (h : step s = .next t) (ht : t.halt = .running) :
    ∃ i row, decode s.ir = .ok i ∧ table s.status i = some row ∧ t = commit row (settle row s) s := by
  obtain ⟨i, row, hdec, hrow, hcommit, -⟩ | ⟨_, _, hne⟩ := step_committed_or_halted h
  · exact ⟨i, row, hdec, hrow, hcommit⟩
  · exact absurd ht hne

theorem step_haltedBy_of_not_running (h : step s = .next t) (ht : t.halt ≠ .running) :
    ∃ kind, t = s.haltedBy kind := by
  obtain ⟨_, _, _, _, _, hrun⟩ | ⟨kind, hk, -⟩ := step_committed_or_halted h
  · exact absurd hrun ht
  · exact ⟨kind, hk⟩

/-- Whatever a halt leaves alone changes only by a commit. -/
theorem step_commits_of_changed {α : Type} {read : State → α} (hread : ∀ kind, read (s.haltedBy kind) = read s)
    (h : step s = .next t) (hne : read t ≠ read s) :
    ∃ i row, decode s.ir = .ok i ∧ table s.status i = some row ∧ t = commit row (settle row s) s := by
  obtain ⟨i, row, hdec, hrow, hcommit, -⟩ | ⟨kind, rfl, -⟩ := step_committed_or_halted h
  · exact ⟨i, row, hdec, hrow, hcommit⟩
  · exact absurd (hread kind) hne

end step

end Sys2Proof.Machine

/-! The register law and the bus: who changes a register, and what the settle phase reads (10_state.md R21 to R25;
40_tick_and_control.md R104, R105). -/

namespace Sys2Proof.Machine

theorem latch_ne_current {enable : Bool} {proposed current : Word} (h : latch enable proposed current ≠ current) :
    enable = true ∧ latch enable proposed current = proposed := by
  cases enable with
  | false => exact absurd rfl h
  | true => exact ⟨rfl, rfl⟩

theorem latch_congr {enable : Bool} {p q current : Word} (h : enable = true → p = q) :
    latch enable p current = latch enable q current := by
  cases enable with
  | false => rfl
  | true => exact h rfl

/-- The bus carries a general register only under that register's own selector. -/
theorem busWord_setReg {sel : BusSel} {k : RegId} (hsel : sel ≠ .reg k) (draw v : Word) (s : State) :
    busWord draw sel (s.setReg k v) = busWord draw sel s := by
  cases sel with
  | reg j =>
    have hjk : j ≠ k := fun e => hsel (congrArg _ e)
    simp [busWord, State.reg_setReg, hjk]
  | din => rfl
  | g => rfl
  | dontcare => rfl

theorem settle_setReg {row : Signals} {k : RegId} (hsel : row.busSel ≠ .reg k) (v : Word) (s : State) :
    settle row (s.setReg k v) = settle row s := by
  simp [settle, settleWith, busWord_setReg hsel]

theorem busWord_replace_a (draw : Word) (sel : BusSel) (s : State) (v : Word) :
    busWord draw sel { s with a := v } = busWord draw sel s := by
  cases sel <;> rfl

/-- Settles O4: a commit is the register law, only a commit changes a register, and the bus reads a register under its
own selector alone. -/
theorem generalRegistersLatchOnlyTheBus : Obligations.GeneralRegistersLatchOnlyTheBus := by
  refine ⟨fun row s k => commit_reg row _ s k, fun s t h k hne => ?_, fun _ s _ v hsel => settle_setReg hsel v s⟩
  obtain ⟨i, row, hdec, hrow, rfl⟩ := step_commits_of_changed (read := (·.reg k)) (fun _ => rfl) h hne
  rw [commit_reg] at hne ⊢
  obtain ⟨hin, hbus⟩ := latch_ne_current hne
  exact ⟨i, row, hdec, hrow, hin, hbus⟩

/-- Settles O5, as O4: G latches the ALU's output under `g_in`. -/
theorem resultBufferLatchesTheAlu : Obligations.ResultBufferLatchesTheAlu := by
  refine ⟨fun row s => commit_g row _ s, fun s t h hne => ?_, fun row s hsel => by rw [settle_bus, hsel]; rfl⟩
  obtain ⟨i, row, hdec, hrow, rfl⟩ := step_commits_of_changed (read := State.g) (fun _ => rfl) h hne
  obtain ⟨hin, halu⟩ := latch_ne_current hne
  exact ⟨i, row, hdec, hrow, hin, halu⟩

/-- Settles O6, as O4: A latches the bus under `a_in`; the settle phase reads it in the ALU alone. -/
theorem operandBufferLatchesTheBus : Obligations.OperandBufferLatchesTheBus := by
  refine ⟨fun row s => commit_a row _ s, fun s t h hne => ?_,
    fun row s => ⟨_, settle_aluOut row s, fun h => by rw [h]; rfl, fun h => by rw [h]; rfl⟩,
    fun row s v => busWord_replace_a _ row.busSel s v⟩
  obtain ⟨i, row, hdec, hrow, rfl⟩ := step_commits_of_changed (read := State.a) (fun _ => rfl) h hne
  obtain ⟨hin, hbus⟩ := latch_ne_current hne
  exact ⟨i, row, hdec, hrow, hin, hbus⟩

/-- Settles O7: among the rows only the fetch row asserts `ir_in`. -/
theorem instructionRegisterLoadsOnlyAtT0 : Obligations.InstructionRegisterLoadsOnlyAtT0 := by
  refine fun s t h => ⟨fun ht hst => ?_, fun ht hst => ?_, fun ht => ?_⟩
  · obtain ⟨i, row, -, hrow, rfl⟩ := step_commits_of_running h ht
    rw [commit_ir, (rowShape_of_table hrow).irIn_iff.mpr hst, latch_true]
  · obtain ⟨i, row, -, hrow, rfl⟩ := step_commits_of_running h ht
    have hoff : row.irIn = false := Bool.eq_false_iff.mpr fun hin => hst ((rowShape_of_table hrow).irIn_iff.mp hin)
    rw [commit_ir, hoff, latch_false]
  · obtain ⟨kind, rfl⟩ := step_haltedBy_of_not_running h ht
    rfl

/-- Settles O9: a commit applies the transition function to the row's `done`, a halt leaves Status. -/
theorem statusChangesOnlyByTheTransition : Obligations.StatusChangesOnlyByTheTransition := by
  refine ⟨fun s t h ht => ?_, fun s t h ht => ?_, fun _ _ => rfl, fun s t h ht hstay => ?_⟩
  · obtain ⟨i, row, hdec, hrow, rfl⟩ := step_commits_of_running h ht
    exact ⟨i, row, hdec, hrow, rfl⟩
  · obtain ⟨kind, rfl⟩ := step_haltedBy_of_not_running h ht
    rfl
  · obtain ⟨i, row, -, hrow, rfl⟩ := step_commits_of_running h ht
    exact (rowShape_of_table hrow).status_eq_t0_of_nextStatus_eq hstay

/-- Settles O23: the halt mark is what a tick looks at first. -/
theorem haltedBlockTakesNoTick : Obligations.HaltedBlockTakesNoTick :=
  fun _ _ _ h => step_of_halted h

end Sys2Proof.Machine

/-! A tick sees the snapshot, the halt mark and its inputs: two states that agree there settle and commit alike, under
any draws (10_state.md R28; 40_tick_and_control.md R100, R120). -/

namespace Sys2Proof.Machine

theorem State.snapshot_eq_iff {s s' : State} :
    s.snapshot = s'.snapshot ↔
      (∀ k, s.reg k = s'.reg k) ∧ s.a = s'.a ∧ s.g = s'.g ∧ s.ir = s'.ir ∧ s.status = s'.status := by
  constructor
  · intro h
    simp only [State.snapshot, Snapshot.mk.injEq] at h
    obtain ⟨h0, h1, h2, h3, hrest⟩ := h
    exact ⟨fun k => by cases k <;> assumption, hrest⟩
  · rintro ⟨hreg, ha, hg, hir, hst⟩
    have hregs : s.regs = s'.regs := Regs.ext_get hreg
    simp only [State.snapshot, hregs, ha, hg, hir, hst]

@[simp] theorem State.snapshot_haltedBy (s : State) (kind : HaltKind) : (s.haltedBy kind).snapshot = s.snapshot := rfl

section twoStates
variable {s s' : State} (hsnap : s.snapshot = s'.snapshot) (hin : s.input = s'.input)
include hsnap hin

theorem busWord_congr {sel : BusSel} (hsel : sel ≠ .dontcare) (draw draw' : Word) :
    busWord draw sel s = busWord draw' sel s' := by
  obtain ⟨hreg, -, hg, -⟩ := State.snapshot_eq_iff.mp hsnap
  cases sel with
  | reg k => exact hreg k
  | din => exact congrArg Input.din hin
  | g => exact hg
  | dontcare => exact absurd rfl hsel

variable {row : Signals} (drawBus drawBus' : Word) (drawMode drawMode' : Bool)

theorem settleWith_aluOut_congr (hsel : row.busSel ≠ .dontcare) (hmode : row.mode ≠ .dontcare) :
    (settleWith drawBus drawMode row s).aluOut = (settleWith drawBus' drawMode' row s').aluOut := by
  obtain ⟨-, ha, -⟩ := State.snapshot_eq_iff.mp hsnap
  have hresolve : row.mode.resolve drawMode = row.mode.resolve drawMode' := by
    cases hm : row.mode with
    | add => rfl
    | subtract => rfl
    | dontcare => exact absurd hm hmode
  simp only [settleWith, ha, hresolve, busWord_congr hsnap hin hsel drawBus drawBus']

/-- A row that latches no draw commits the same snapshot from two states that agree in snapshot and inputs. -/
theorem commit_snapshot_congr (hrow : row.LatchesNoDraw) :
    (commit row (settleWith drawBus drawMode row s) s).snapshot =
      (commit row (settleWith drawBus' drawMode' row s') s').snapshot := by
  obtain ⟨hreg, ha, hg, hir, hst⟩ := State.snapshot_eq_iff.mp hsnap
  refine State.snapshot_eq_iff.mpr ⟨fun k => ?_, ?_, ?_, ?_, ?_⟩
  · rw [commit_reg, commit_reg, hreg k]
    exact latch_congr fun hk => busWord_congr hsnap hin (hrow.reg k hk) drawBus drawBus'
  · rw [commit_a, commit_a, ha]
    exact latch_congr fun hk => busWord_congr hsnap hin (hrow.a hk) drawBus drawBus'
  · rw [commit_g, commit_g, hg]
    refine latch_congr fun hk => ?_
    obtain ⟨hsel, hmode⟩ := hrow.g hk
    exact settleWith_aluOut_congr hsnap hin drawBus drawBus' drawMode drawMode' hsel hmode
  · rw [commit_ir, commit_ir, hin, hir]
  · rw [commit_status, commit_status, hst, hin]
    rfl

end twoStates

/-- Settles O27: both states take the same branch of the tick, and no row latches a draw. -/
theorem tickDependsOnlyOnStateAndInputs : Obligations.TickDependsOnlyOnStateAndInputs := by
  intro s s' t hsnap hhalt hin h
  obtain ⟨-, -, -, hir, hst⟩ := State.snapshot_eq_iff.mp hsnap
  obtain ⟨hrun, hcases⟩ := step_cases h
  have hrun' : s'.halt = .running := hhalt ▸ hrun
  rw [hir, hst] at hcases
  obtain ⟨i, row, hdec, hrow, rfl⟩ | ⟨e, hdec, rfl⟩ | ⟨i, hdec, hrow, rfl⟩ := hcases
  · exact ⟨_, step_of_row hrun' hdec hrow,
      (commit_snapshot_congr hsnap hin _ _ _ _ (rowShape_of_table hrow).latchesNoDraw).symm, hhalt.symm, rfl⟩
  · exact ⟨_, step_of_decode_error hrun' hdec, hsnap.symm, by simp [hir, hst], rfl⟩
  · exact ⟨_, step_of_no_row hrun' hdec hrow, hsnap.symm, by simp [hir, hst], rfl⟩

end Sys2Proof.Machine

/-! The initial state (10_state.md R36; 70_reset_and_hazards.md R230). -/

namespace Sys2Proof

open Machine

theorem haltMarkSound_of_running {s : State} (h : s.halt = .running) : HaltMarkSound s :=
  fun _ _ hhalted => nomatch h.symm.trans hhalted

theorem coherent_of_t0 {s : State} (h : s.status = .t0) : Coherent s := by
  simp [Coherent, h]

/-- Settles O29: at T0 nothing is in progress, and a running block has no halt to account for. -/
theorem invariantHoldsAtStart : Obligations.InvariantHoldsAtStart :=
  fun _ _ => ⟨coherent_of_t0 rfl, haltMarkSound_of_running rfl⟩

/-- Settles O46: the fields of the initial state, and of the all-zero one. -/
theorem initialState : Obligations.InitialState :=
  ⟨fun _ _ => ⟨rfl, rfl, rfl⟩, rfl, rfl, rfl⟩

end Sys2Proof

/-! The decode map under the spec's opcodes (30_encoding.md R71, R72, R77, R80). -/

namespace Sys2Proof

theorem opField_eq_iff (w : Word) (op : OpcodeBits) : opField w = op ↔ w.toNat / 16 = op.toNat := by
  have hw : w.toNat < 256 := w.isLt
  rw [opField, ← BitVec.toNat_inj, BitVec.extractLsb'_toNat, Nat.shiftRight_eq_div_pow]
  omega

theorem rxField_eq (w : Word) : rxField w = RegId.ofSel (BitVec.ofNat 2 (w.toNat / 4 % 4)) := by
  rw [rxField]
  congr 1
  apply BitVec.eq_of_toNat_eq
  simp [Nat.shiftRight_eq_div_pow]

theorem ryField_eq (w : Word) : ryField w = RegId.ofSel (BitVec.ofNat 2 (w.toNat % 4)) := by
  rw [ryField]
  congr 1
  apply BitVec.eq_of_toNat_eq
  simp

/-- What a word decodes to, by the range of its opcode field. -/
theorem decode_cases (w : Word) :
    (w.toNat < 0x10 ∧ decode w = .ok (.mv (rxField w) (ryField w))) ∨
    ((0x10 ≤ w.toNat ∧ w.toNat < 0x20) ∧ decode w = .ok (.mvi (rxField w))) ∨
    ((0x20 ≤ w.toNat ∧ w.toNat < 0x30) ∧ decode w = .ok (.add (rxField w) (ryField w))) ∨
    ((0x30 ≤ w.toNat ∧ w.toNat < 0x40) ∧ decode w = .ok (.sub (rxField w) (ryField w))) ∨
    (0x40 ≤ w.toNat ∧ decode w = .error (.ambiguousOrUndecodable w)) := by
  have hd : opcodes.distinct = true := by decide
  obtain h | h | h | h | h : w.toNat / 16 = 0 ∨ w.toNat / 16 = 1 ∨ w.toNat / 16 = 2 ∨ w.toNat / 16 = 3 ∨
      4 ≤ w.toNat / 16 := by omega
  · exact .inl ⟨by omega, decodeWith_of_opField_mv ((opField_eq_iff w _).mpr h)⟩
  · exact .inr (.inl ⟨by omega, decodeWith_of_opField_mvi hd ((opField_eq_iff w _).mpr h)⟩)
  · exact .inr (.inr (.inl ⟨by omega, decodeWith_of_opField_add hd ((opField_eq_iff w _).mpr h)⟩))
  · exact .inr (.inr (.inr (.inl ⟨by omega, decodeWith_of_opField_sub hd ((opField_eq_iff w _).mpr h)⟩)))
  · have hne (op : OpcodeBits) (hop : op.toNat < 4) : opField w ≠ op := fun e => by
      have := (opField_eq_iff w op).mp e
      omega
    refine .inr (.inr (.inr (.inr ⟨by omega, ?_⟩)))
    simp [decode, decodeWith, hne opcodes.mv (by decide), hne opcodes.mvi (by decide),
      hne opcodes.add (by decide), hne opcodes.sub (by decide)]

/-- Settles O43: the five ranges exclude each other and cover all words. -/
theorem decodeMapOfAllWords : Obligations.DecodeMapOfAllWords := by
  refine ⟨⟨rfl, rfl, rfl, rfl⟩, ⟨rfl, rfl, rfl, rfl⟩, fun w => ⟨rxField_eq w, ryField_eq w, ?_⟩⟩
  obtain ⟨hw, hdec⟩ | ⟨hw, hdec⟩ | ⟨hw, hdec⟩ | ⟨hw, hdec⟩ | ⟨hw, hdec⟩ := decode_cases w <;>
    simp [decodable, hdec] <;> omega

end Sys2Proof

/-! Where the inputs are read: `run` by the T0 transition, `din` by IR at T0 and by the bus in Mvi's T1 tick
(20_memory.md R51; 70_reset_and_hazards.md R239). -/

namespace Sys2Proof.Machine

theorem nextStatus_of_ne_t0 {st : Status} (hst : st ≠ .t0) (run run' done : Bool) :
    nextStatus st run done = nextStatus st run' done := by
  cases st with
  | t0 => exact absurd rfl hst
  | t1 | t2 | t3 => rfl

/-- `din` drives the bus in one row of the table: Mvi's at T1. -/
theorem busSel_eq_din_iff {st : Status} {i : Instr} {row : Signals} (h : table st i = some row) :
    row.busSel = .din ↔ st = .t1 ∧ ∃ rx, i = .mvi rx := by
  cases i with
  | mvi rx =>
    cases st <;> cases h
    · exact iff_of_false nofun nofun
    · exact iff_of_true rfl ⟨rfl, rx, rfl⟩
  | mv | add | sub => cases st <;> cases h <;> exact iff_of_false nofun nofun

section withInput
variable {s : State} {inp : Input} {row : Signals}

theorem State.haltedBy_withInput (s : State) (inp : Input) (kind : HaltKind) :
    (s.withInput inp).haltedBy kind = s.haltedBy kind := rfl

theorem busWord_withInput {sel : BusSel} (hdin : sel = .din → inp.din = s.input.din) (draw : Word) :
    busWord draw sel (s.withInput inp) = busWord draw sel s := by
  cases sel with
  | din => exact hdin rfl
  | reg | g | dontcare => rfl

theorem settle_withInput (hdin : row.busSel = .din → inp.din = s.input.din) :
    settle row (s.withInput inp) = settle row s := by
  simp [settle, settleWith, busWord_withInput hdin]

theorem commit_withInput (hst : s.status ≠ .t0) (hir : row.irIn = false) (v : Settled) :
    commit row v (s.withInput inp) = commit row v s := by
  simp [commit, hir, nextStatus_of_ne_t0 hst inp.run s.input.run]

/-- Outside T0 a step's only use of its inputs is `din` in Mvi's T1 tick. -/
theorem step_withInput (hst : s.status ≠ .t0)
    (hdin : s.status = .t1 → ∀ rx, decode s.ir = .ok (.mvi rx) → inp.din = s.input.din) :
    step (s.withInput inp) = step s := by
  cases hhalt : s.halt with
  | halted kind info => rw [step_of_halted hhalt, step_of_halted (s := s.withInput inp) hhalt]
  | running =>
    cases hdec : decode s.ir with
    | error e =>
      rw [step_of_decode_error hhalt hdec, step_of_decode_error (s := s.withInput inp) hhalt hdec,
        State.haltedBy_withInput]
    | ok i =>
      cases hrow : table s.status i with
      | none =>
        rw [step_of_no_row hhalt hdec hrow, step_of_no_row (s := s.withInput inp) hhalt hdec hrow,
          State.haltedBy_withInput]
      | some row =>
        have hir : row.irIn = false := Bool.eq_false_iff.mpr fun h => hst ((rowShape_of_table hrow).irIn_iff.mp h)
        have hbus : row.busSel = .din → inp.din = s.input.din := fun hsel => by
          obtain ⟨ht1, rx, rfl⟩ := (busSel_eq_din_iff hrow).mp hsel
          exact hdin ht1 rx hdec
        rw [step_of_row hhalt hdec hrow, step_of_row (s := s.withInput inp) hhalt hdec hrow,
          settle_withInput hbus, commit_withInput hst hir]

end withInput

/-- Settles O26: with Mvi's T1 tick excluded too, either input leaves the step as it is without them. -/
theorem inputsAreIgnoredElsewhere : Obligations.InputsAreIgnoredElsewhere := by
  intro s inp inp' hst hmvi
  have hstep (inp : Input) : step (s.withInput inp) = step s :=
    step_withInput hst fun ht1 rx hdec => absurd hdec (hmvi ht1 rx)
  exact (hstep inp).trans (hstep inp').symm

end Sys2Proof.Machine

/-! From a word to its instruction and back, the words of an assembler line, and the halt on an undecodable word
(30_encoding.md R74, R77, R78, R80, R83; 60_exceptions.md R200 to R202). -/

namespace Sys2Proof

/-- What a word that decodes is: the opcode field is a variant's, and the variant's operands are the register fields.
No distinctness is needed, since only the variant that was picked is named. -/
theorem decodeWith_ok_cases {oc : Opcodes} {w : Word} {i : Instr} (h : decodeWith oc w = .ok i) :
    (opField w = oc.mv ∧ i = .mv (rxField w) (ryField w)) ∨
    (opField w = oc.mvi ∧ i = .mvi (rxField w)) ∨
    (opField w = oc.add ∧ i = .add (rxField w) (ryField w)) ∨
    (opField w = oc.sub ∧ i = .sub (rxField w) (ryField w)) := by
  unfold decodeWith at h
  split_ifs at h with hmv hmvi hadd hsub <;> cases h
  · exact .inl ⟨hmv, rfl⟩
  · exact .inr (.inl ⟨hmvi, rfl⟩)
  · exact .inr (.inr (.inl ⟨hadd, rfl⟩))
  · exact .inr (.inr (.inr ⟨hsub, rfl⟩))

theorem packWord_fields_ry_zero (w : Word) :
    packWord (opField w) (rxField w).toSel RegId.r0.toSel = w &&& 0xFC#8 := by
  revert w
  decide

/-- Settles O41: a decoded instruction packs the word's own fields again, and for Mvi 00 in place of `ry`. -/
theorem encodeDecodeGivesTheCanonicalWord : Obligations.EncodeDecodeGivesTheCanonicalWord := by
  intro oc w i h
  have hword := packWord_fields w
  have hcanonical := packWord_fields_ry_zero w
  obtain ⟨hop, rfl⟩ | ⟨hop, rfl⟩ | ⟨hop, rfl⟩ | ⟨hop, rfl⟩ := decodeWith_ok_cases h
  · rwa [hop] at hword
  · rwa [hop] at hcanonical
  · rwa [hop] at hword
  · rwa [hop] at hword

/-- Settles O42: the opcode field picks Mvi, whose operand is the `rx` field alone. -/
theorem mviIgnoresItsLowBits : Obligations.MviIgnoresItsLowBits := by
  intro oc hd x y y'
  have hdec (z : SelBits) : decodeWith oc (packWord oc.mvi x z) = .ok (.mvi (RegId.ofSel x)) := by
    rw [decodeWith_of_opField_mvi hd (opField_packWord oc.mvi x z), rxField_packWord]
  exact ⟨hdec y, (hdec y).trans (hdec y').symm⟩

/-- Settles O44: five closed words, decoded. -/
theorem writtenOutWordsDecode : Obligations.WrittenOutWordsDecode := by
  unfold Obligations.WrittenOutWordsDecode
  decide

theorem AsmLine.wellFormed_iff (l : AsmLine) :
    l.wellFormed = true ↔
      (∃ rx d, l.instr = .mvi rx ∧ l.data = some d) ∨ ((∀ rx, l.instr ≠ .mvi rx) ∧ l.data = none) := by
  obtain ⟨i, data⟩ := l
  cases i with
  | mvi rx => simp [AsmLine.wellFormed, Option.isSome_iff_exists]
  | mv | add | sub => simp [AsmLine.wellFormed]

theorem encode_mvi_toNat_mod_four (rx : RegId) : (encode (.mvi rx)).toNat % 4 = 0 := by
  cases rx <;> rfl

/-- Settles O45: the word is `encode` of the line's instruction. -/
theorem assemblerLineWords : Obligations.AssemblerLineWords := by
  intro l hl
  refine ⟨encode l.instr, decodeEncodeUnderEveryOpcodeAssignment.2 l.instr, ?_⟩
  obtain ⟨rx, d, hinstr, hdata⟩ | ⟨hinstr, hdata⟩ := l.wellFormed_iff.mp hl
  · refine .inl ⟨rx, d, hinstr, hdata, ?_, by simp [AsmLine.words, hdata]⟩
    rw [hinstr, encode_mvi_toNat_mod_four]
  · exact .inr ⟨hinstr, by simp [AsmLine.words, hdata]⟩

theorem decodable_eq_false_iff (w : Word) : decodable w = false ↔ ∃ e, decode w = .error e := by
  cases h : decode w <;> simp [decodable, h]

/-- Settles O22: the decode comes before the dispatch in every Status, and its error enters the halt. -/
theorem undecodableWordHalts : Obligations.UndecodableWordHalts := by
  intro s hrun hundec
  obtain ⟨e, hdec⟩ := (decodable_eq_false_iff s.ir).mp hundec
  exact Machine.step_of_decode_error hrun hdec

end Sys2Proof

/-! The table row by row, its pairs without a row, and the tick of an instruction with and without one
(40_tick_and_control.md R112, R113, R116, R117; 60_exceptions.md R200 to R202). -/

namespace Sys2Proof

theorem decodable_iff (w : Word) : decodable w = true ↔ ∃ i, decode w = .ok i := by
  cases h : decode w <;> simp [decodable, h]

end Sys2Proof

namespace Sys2Proof.Machine

theorem table_t0 (i : Instr) : table .t0 i = some fetchRow := by
  cases i <;> rfl

/-- The pairs without a row are the moves at T2 and T3 (40_tick_and_control.md R117). -/
theorem table_eq_none_iff (st : Status) (i : Instr) :
    table st i = none ↔ i.isMove = true ∧ (st = .t2 ∨ st = .t3) := by
  cases i <;> cases st <;> simp [table, rowMv, rowMvi, rowAdd, rowSub, Instr.isMove]

/-- A row that copies the bus to one register and retires, as the table prints it. -/
theorem onBus_latching_retiring (sel : BusSel) (rx : RegId) :
    { (Signals.onBus sel).latching rx with done := true } =
      printedRow sel (some rx) false false false .dontcare true := by
  cases rx <;> rfl

theorem exec_of_row {s : State} {i : Instr} {row : Signals} (hrow : table s.status i = some row) :
    exec i s = .next (commit row (settle row s) s) := by
  rw [exec_eq_runRow, hrow, runRow_oneHot (rowShape_of_table hrow).oneHot]

theorem exec_of_no_row {s : State} {i : Instr} (hrow : table s.status i = none) :
    exec i s = .next (s.haltedBy .unreachableDecodeRow) := by
  rw [exec_eq_runRow, hrow]
  rfl

/-- The check of R116 passes only where two asserted enables are the same one. -/
theorem Signals.eq_of_oneHot {row : Signals} (h : row.oneHot = true) {j k : RegId}
    (hj : row.rIn j = true) (hk : row.rIn k = true) : j = k := by
  have hcount : row.latchCount ≤ 1 := of_decide_eq_true h
  by_contra hjk
  have htwo : 2 ≤ row.latchCount := by
    cases j <;> cases k <;> simp_all [Signals.latchCount, Signals.rIn] <;> omega
  omega

/-- Settles O17: the rows as printed; that a tick commits its row rests on every row being one-hot. -/
theorem decodeTableRows : Obligations.DecodeTableRows := by
  refine ⟨table_t0, fun rx ry => ?_, fun rx => ?_, fun rx ry i hi => ?_, fun _ _ => rfl, fun _ _ => rfl,
    fun i hi => ?_, fun _ _ _ hrow => exec_of_row hrow⟩
  · exact congrArg some (onBus_latching_retiring (.reg ry) rx)
  · exact congrArg some (onBus_latching_retiring .din rx)
  · obtain rfl | rfl := hi
    · exact ⟨rfl, congrArg some (onBus_latching_retiring .g rx)⟩
    · exact ⟨rfl, congrArg some (onBus_latching_retiring .g rx)⟩
  · exact ⟨(table_eq_none_iff _ i).mpr ⟨hi, .inl rfl⟩, (table_eq_none_iff _ i).mpr ⟨hi, .inr rfl⟩⟩

/-- Settles O16: such a pair has no row. -/
theorem movesWithoutARowHalt : Obligations.MovesWithoutARowHalt :=
  fun i s hi hst => ⟨_, exec_of_no_row ((table_eq_none_iff s.status i).mpr ⟨hi, hst⟩), rfl, rfl, rfl⟩

/-- Settles O18: a tick without a row halts with another kind, and one with a row commits it. -/
theorem oneHotLatchEnables : Obligations.OneHotLatchEnables := by
  refine ⟨fun st i row hrow j k => Signals.eq_of_oneHot (rowShape_of_table hrow).oneHot,
    fun i s t hrun h info => ?_⟩
  cases hrow : table s.status i with
  | none =>
    cases h.symm.trans (exec_of_no_row hrow)
    nofun
  | some row =>
    cases h.symm.trans (exec_of_row hrow)
    rw [commit_halt, hrun]
    nofun

/-- Settles O10: every instruction has the fetch row at T0, which asserts `ir_in` alone. -/
theorem fetchTickOfEveryInstruction : Obligations.FetchTickOfEveryInstruction := by
  intro i s hst
  have hrow : table s.status i = some fetchRow := by rw [hst, table_t0]
  refine ⟨_, exec_of_row hrow, fun _ => rfl, rfl, rfl, rfl, ?_, rfl, rfl, rfl, rfl⟩
  rw [commit_status, hst]
  rfl

/-- Settles O21: the tick decodes IR and dispatches. -/
theorem stepRunsTheDecodedInstruction : Obligations.StepRunsTheDecodedInstruction :=
  fun s i hrun hdec => (step_of_decode_ok hrun hdec).trans (exec_eq_runRow i s).symm

/-- Settles O8: a commit puts out the row's `done`, a halt none. -/
theorem doneOutputIsTheRowsDone : Obligations.DoneOutputIsTheRowsDone := by
  refine fun s t h => ⟨fun ht => ?_, fun ht => ?_⟩
  · obtain ⟨i, row, hdec, hrow, rfl⟩ := step_commits_of_running h ht
    exact ⟨i, row, hdec, hrow, rfl⟩
  · obtain ⟨kind, rfl⟩ := step_haltedBy_of_not_running h ht
    rfl

/-- Settles O33: a ready block's step is a fetch tick, and without `run` Status stays. -/
theorem idleTickReloadsOnlyIR : Obligations.IdleTickReloadsOnlyIR := by
  intro s hready hidle
  obtain ⟨hrun, hst, hdecodable⟩ := hready
  obtain ⟨i, hdec⟩ := (decodable_iff s.ir).mp hdecodable
  obtain ⟨t, hexec, hreg, ha, hg, hir, hstatus, hout, hone⟩ := fetchTickOfEveryInstruction i s hst
  refine ⟨t, (stepRunsTheDecodedInstruction s i hrun hdec).trans hexec, hreg, ha, hg, ?_, hir, hout, hone⟩
  rw [hstatus, hidle]
  rfl

end Sys2Proof.Machine

/-! The ALU, the bus and the transition function on their own (40_tick_and_control.md R105, R107, R113), and `run`
outside T0 (R114). -/

namespace Sys2Proof.Machine

/-- Settles O1: the two modes are the word operations, which wrap at 2^8. -/
theorem aluComputesModulo256 : Obligations.AluComputesModulo256 := by
  refine fun a b => ⟨BitVec.toNat_add a b, ?_⟩
  have hsub : (alu true a b).toNat = (2 ^ 8 - b.toNat + a.toNat) % 2 ^ 8 := BitVec.toNat_sub a b
  omega

/-- Settles O2: one branch of the multiplexer for each selector. -/
theorem busMultiplexerSelectsItsSource : Obligations.BusMultiplexerSelectsItsSource :=
  fun _ _ => ⟨fun _ => rfl, rfl, rfl, rfl⟩

/-- Settles O3: the table is the transition function's own, and the settle phase passes `done` through. -/
theorem statusTransitionTable : Obligations.StatusTransitionTable :=
  ⟨fun _ => ⟨rfl, rfl⟩, fun _ => ⟨rfl, rfl, rfl, rfl, rfl, rfl⟩, fun row s => commit_status row _ s⟩

/-- Settles O25: changing `run` alone changes the inputs and leaves `din`. -/
theorem runIsReadOnlyAtT0 : Obligations.RunIsReadOnlyAtT0 :=
  fun s run run' din hst =>
    (step_withInput (s := s.withInput ⟨run, din⟩) (inp := ⟨run', din⟩) hst fun _ _ _ => rfl).symm

end Sys2Proof.Machine

/-! What becomes of a don't-care draw: no register takes it, and the wires that carry it are reported as unconstrained
(40_tick_and_control.md R119, R120; 60_exceptions.md R214). -/

namespace Sys2Proof.Machine

theorem State.eq_of_snapshot_eq {s t : State} (hsnap : s.snapshot = t.snapshot) (hhalt : s.halt = t.halt)
    (hout : s.output = t.output) (hpending : s.pending = t.pending) (htick : s.tick = t.tick) : s = t := by
  obtain ⟨hreg, ha, hg, hir, hst⟩ := State.snapshot_eq_iff.mp hsnap
  have hregs : s.regs = t.regs := Regs.ext_get hreg
  cases s
  cases t
  simp_all

/-- Settles O19: no row latches a draw, and the fields the snapshot leaves out take none either. -/
theorem dontcareDrawsReachNoState : Obligations.DontcareDrawsReachNoState := by
  intro st i row hrow s drawBus drawMode drawBus' drawMode'
  exact State.eq_of_snapshot_eq
    (commit_snapshot_congr rfl rfl drawBus drawBus' drawMode drawMode' (rowShape_of_table hrow).latchesNoDraw)
    rfl rfl rfl rfl

namespace RowShape
variable {st : Status} {row : Signals}

theorem busSel_eq_dontcare_iff (h : RowShape st row) : row.busSel = .dontcare ↔ st = .t0 := by
  cases h with
  | fetch => exact iff_of_true rfl rfl
  | move _ _ hsel => exact iff_of_false hsel nofun
  | operand | result | writeBack => exact iff_of_false nofun nofun

/-- T2 is the only Status whose row names a mode. -/
theorem mode_eq_dontcare_iff (h : RowShape st row) : row.mode = .dontcare ↔ st ≠ .t2 := by
  cases h with
  | result _ _ hmode => exact iff_of_false hmode (absurd rfl)
  | fetch | move | operand | writeBack => exact iff_of_true rfl nofun

end RowShape

section wiresOf
variable {row : Signals} {s : State}

theorem wiresOf_bus_eq_none_iff : (wiresOf row s).bus = none ↔ row.busSel = .dontcare := by
  simp [wiresOf]

theorem wiresOf_aluOut_eq_none_iff :
    (wiresOf row s).aluOut = none ↔ row.busSel = .dontcare ∨ row.mode = .dontcare := by
  simp only [wiresOf, ite_eq_left_iff, reduceCtorEq, imp_false, not_not]

theorem eq_settle_of_wiresOf_bus {v : Word} (h : (wiresOf row s).bus = some v) : v = (settle row s).bus := by
  simp only [wiresOf, Option.ite_none_left_eq_some] at h
  exact (Option.some.inj h.2).symm

theorem eq_settle_of_wiresOf_aluOut {v : Word} (h : (wiresOf row s).aluOut = some v) :
    v = (settle row s).aluOut := by
  simp only [wiresOf, Option.ite_none_left_eq_some] at h
  exact (Option.some.inj h.2).symm

end wiresOf

/-- Wires are reported exactly where the coming tick has a row to settle. -/
theorem State.wires_eq_some_iff {s : State} {w : Wires} :
    s.wires = some w ↔
      s.halt = .running ∧ ∃ i row, decode s.ir = .ok i ∧ table s.status i = some row ∧ wiresOf row s = w := by
  cases hrun : s.halt <;> cases hdec : decode s.ir <;> simp [State.wires, hrun, hdec]

/-- Settles O20: the row at T0 draws its bus, and every row but T2's draws its mode. -/
theorem drawnWiresAreUnconstrained : Obligations.DrawnWiresAreUnconstrained := by
  refine ⟨fun s w hw => ?_, fun s i row hrun hdec hrow =>
    ⟨_, State.wires_eq_some_iff.mpr ⟨hrun, i, row, hdec, hrow, rfl⟩⟩⟩
  obtain ⟨hrun, i, row, hdec, hrow, rfl⟩ := State.wires_eq_some_iff.mp hw
  have hshape := rowShape_of_table hrow
  refine ⟨hrun, ⟨i, row, hdec, hrow, rfl, fun _ => eq_settle_of_wiresOf_bus,
    fun _ => eq_settle_of_wiresOf_aluOut⟩, ?_, ?_⟩
  · rw [wiresOf_bus_eq_none_iff, hshape.busSel_eq_dontcare_iff]
  · rw [wiresOf_aluOut_eq_none_iff, hshape.busSel_eq_dontcare_iff, hshape.mode_eq_dontcare_iff]
    cases s.status <;> decide

end Sys2Proof.Machine

/-! The run invariant: what a commit leaves of it, what a halt leaves of it, and every run from the initial state
(40_tick_and_control.md R118; 42_arith.md R170, R173; 60_exceptions.md R201 to R203). -/

namespace Sys2Proof

open Machine

section coherent
variable {s : State} {i : Instr} {row : Signals}

theorem coherent_of_t1 (h : s.status = .t1) : Coherent s := by
  simp [Coherent, h]

theorem coherent_iff_of_t2 (h : s.status = .t2) :
    Coherent s ↔
      ∃ rx ry, (decode s.ir = .ok (.add rx ry) ∨ decode s.ir = .ok (.sub rx ry)) ∧ s.a = s.reg rx := by
  simp only [Coherent, h]

theorem coherent_iff_of_t3 (h : s.status = .t3) :
    Coherent s ↔ ∃ rx ry, s.a = s.reg rx ∧
      (decode s.ir = .ok (.add rx ry) ∧ s.g = s.reg rx + s.reg ry ∨
       decode s.ir = .ok (.sub rx ry) ∧ s.g = s.reg rx - s.reg ry) := by
  simp only [Coherent, h]

theorem Coherent.haltedBy (h : Coherent s) (kind : HaltKind) : Coherent (s.haltedBy kind) := h

/-- At T2 and T3 an Add or Sub is in progress, and A holds its first operand. -/
theorem Coherent.arithmetic_in_progress (h : Coherent s) (hst : s.status = .t2 ∨ s.status = .t3)
    (hdec : decode s.ir = .ok i) : i.isMove = false ∧ s.a = s.reg i.rx := by
  obtain hst | hst := hst
  · obtain ⟨rx, ry, hop | hop, ha⟩ := (coherent_iff_of_t2 hst).mp h
    all_goals
      cases hdec.symm.trans hop
      exact ⟨rfl, ha⟩
  · obtain ⟨rx, ry, ha, ⟨hop, -⟩ | ⟨hop, -⟩⟩ := (coherent_iff_of_t3 hst).mp h
    all_goals
      cases hdec.symm.trans hop
      exact ⟨rfl, ha⟩

/-- In a coherent state every word that decodes has a row. -/
theorem Coherent.table_ne_none (h : Coherent s) (hdec : decode s.ir = .ok i) : table s.status i ≠ none := by
  intro hrow
  obtain ⟨hmove, hst⟩ := (table_eq_none_iff s.status i).mp hrow
  obtain ⟨harith, -⟩ := h.arithmetic_in_progress hst hdec
  exact absurd hmove (by simp [harith])

/-- A commit at T1 retires a move, and buffers R[rx] in A for an Add or Sub. -/
theorem coherent_commit_of_t1 (hst : s.status = .t1) (hdec : decode s.ir = .ok i)
    (hrow : table .t1 i = some row) : Coherent (commit row (settle row s) s) := by
  have hnext := commit_status row (settle row s) s
  rw [hst] at hnext
  cases i with
  | mv | mvi => cases hrow; exact coherent_of_t0 hnext
  | add rx ry => cases hrow; exact (coherent_iff_of_t2 hnext).mpr ⟨rx, ry, .inl hdec, rfl⟩
  | sub rx ry => cases hrow; exact (coherent_iff_of_t2 hnext).mpr ⟨rx, ry, .inr hdec, rfl⟩

/-- A commit at T2 latches the sum or the difference of A and R[ry] in G. -/
theorem coherent_commit_of_t2 (h : Coherent s) (hst : s.status = .t2) (hdec : decode s.ir = .ok i)
    (hrow : table .t2 i = some row) : Coherent (commit row (settle row s) s) := by
  obtain ⟨-, ha⟩ := h.arithmetic_in_progress (.inl hst) hdec
  have hnext := commit_status row (settle row s) s
  rw [hst] at hnext
  cases i with
  | mv | mvi => cases hrow
  | add rx ry =>
    cases hrow
    exact (coherent_iff_of_t3 hnext).mpr ⟨rx, ry, ha, .inl ⟨hdec, congrArg (· + s.reg ry) ha⟩⟩
  | sub rx ry =>
    cases hrow
    exact (coherent_iff_of_t3 hnext).mpr ⟨rx, ry, ha, .inr ⟨hdec, congrArg (· - s.reg ry) ha⟩⟩

theorem coherent_commit (h : Coherent s) (hdec : decode s.ir = .ok i) (hrow : table s.status i = some row) :
    Coherent (commit row (settle row s) s) := by
  have hnext := commit_status row (settle row s) s
  cases hst : s.status with
  | t0 =>
    rw [hst] at hnext
    cases hrun : s.input.run <;> rw [hrun] at hnext
    · exact coherent_of_t0 hnext
    · exact coherent_of_t1 hnext
  | t1 => exact coherent_commit_of_t1 hst hdec (hst ▸ hrow)
  | t2 => exact coherent_commit_of_t2 h hst hdec (hst ▸ hrow)
  | t3 =>
    have hshape := rowShape_of_table hrow
    rw [hst] at hshape hnext
    cases hshape
    exact coherent_of_t0 hnext

end coherent

/-- Settles O28: a commit leaves a running block with A and G as the next microcycle needs them; a halt leaves the
registers alone, and in a coherent state only an undecodable IR raises one. -/
theorem invariantKeptByEveryStep : Obligations.InvariantKeptByEveryStep := by
  rintro s t ⟨hcoh, -⟩ h
  obtain ⟨hrun, ⟨i, row, hdec, hrow, rfl⟩ | ⟨e, hdec, rfl⟩ | ⟨i, hdec, hrow, rfl⟩⟩ := step_cases h
  · exact ⟨coherent_commit hcoh hdec hrow, haltMarkSound_of_running hrun⟩
  · refine ⟨hcoh.haltedBy _, fun kind info hhalt => ?_⟩
    cases hhalt
    exact ⟨rfl, rfl, rfl, (decodable_eq_false_iff s.ir).mpr ⟨e, hdec⟩⟩
  · exact absurd hrow (hcoh.table_ne_none hdec)

section ticks
variable {s t : State}

theorem ticks_succ_of_step (h : step s = .next t) (n : Nat) : ticks (n + 1) s = ticks n t := by
  simp only [ticks, h]

theorem doneTrace_succ_of_step (h : step s = .next t) (n : Nat) :
    doneTrace (n + 1) s = t.output.toList ++ doneTrace n t := by
  simp only [doneTrace, h]

theorem ticks_succ_eq_next_iff {n : Nat} :
    ticks (n + 1) s = .next t ↔ ∃ u, step s = .next u ∧ ticks n u = .next t := by
  cases hstep : step s <;> simp [ticks, hstep]

/-- What every step keeps, every run keeps. -/
theorem ticks_preserve {P : State → Prop} (hstep : ∀ s t, P s → step s = .next t → P t) (n : Nat) (hs : P s)
    (h : ticks n s = .next t) : P t := by
  induction n generalizing s with
  | zero =>
    cases h
    exact hs
  | succ n ih =>
    obtain ⟨u, hu, htail⟩ := ticks_succ_eq_next_iff.mp h
    exact ih (hstep s u hs hu) htail

end ticks

/-- Settles O30: the invariant holds at the start and every step keeps it. -/
theorem invariantHoldsInEveryRun : Obligations.InvariantHoldsInEveryRun :=
  fun init inputs n _ h => ticks_preserve invariantKeptByEveryStep n (invariantHoldsAtStart init inputs) h

end Sys2Proof

/-! An instruction from its fetch tick to the tick that retires it (40_tick_and_control.md R121 to R123). -/

namespace Sys2Proof

open Machine

/-- The block runs instruction `i`, which is in IR, in microcycle `st`. -/
def InProgress (i : Instr) (st : Status) (s : State) : Prop :=
  s.halt = .running ∧ decode s.ir = .ok i ∧ s.status = st

theorem InProgress.status_eq {i : Instr} {st : Status} {s : State} (h : InProgress i st s) : s.status = st := by
  obtain ⟨-, -, hst⟩ := h
  exact hst

/-- A run of `n` ticks is back at T0 then and not before, and `done` is 1 in the last tick alone
(40_tick_and_control.md R121, R123). -/
structure RetiresAfter (n : Nat) (s : State) : Prop where
  back_at_t0 : ∃ t, ticks n s = .next t ∧ t.status = .t0 ∧ t.halt = .running
  away_before : ∀ k, 0 < k → k < n → ∃ u, ticks k s = .next u ∧ u.status ≠ .t0
  done_last : doneTrace n s = List.replicate (n - 1) false ++ [true]

namespace RetiresAfter
variable {s t : State}

theorem one (h : step s = .next t) (hst : t.status = .t0) (hrun : t.halt = .running) (hout : t.output = some true) :
    RetiresAfter 1 s where
  back_at_t0 := ⟨t, ticks_succ_of_step h 0, hst, hrun⟩
  away_before k hpos hlt := absurd hpos (by omega)
  done_last := by rw [doneTrace_succ_of_step h, hout]; rfl

theorem succ {n : Nat} (h : step s = .next t) (hst : t.status ≠ .t0) (hout : t.output = some false)
    (ht : RetiresAfter (n + 1) t) : RetiresAfter (n + 2) s where
  back_at_t0 := by simpa only [ticks_succ_of_step h] using ht.back_at_t0
  away_before k hpos hlt := by
    cases k with
    | zero => exact absurd hpos (by omega)
    | succ k =>
      rw [ticks_succ_of_step h]
      cases k with
      | zero => exact ⟨t, rfl, hst⟩
      | succ k => exact ht.away_before (k + 1) (by omega) (by omega)
  done_last := by
    rw [doneTrace_succ_of_step h, hout, ht.done_last]
    rfl

end RetiresAfter

/-- The fetch tick of an instruction under `run` = 1. -/
theorem Ready.step_of_fetch {s : State} {w : Word} {i : Instr} (h : Ready s) (hin : s.inputAt 0 = ⟨true, w⟩)
    (hw : decode w = .ok i) : ∃ t, step s = .next t ∧ InProgress i .t1 t ∧ t.output = some false := by
  obtain ⟨hrun, hst, hdecodable⟩ := h
  obtain ⟨j, hdec⟩ := (decodable_iff s.ir).mp hdecodable
  obtain ⟨t, hexec, -, -, -, hir, hstatus, hout, hhalt, -⟩ := fetchTickOfEveryInstruction j s hst
  have hinput : s.input = ⟨true, w⟩ := hin
  rw [hinput] at hir hstatus
  exact ⟨t, (stepRunsTheDecodedInstruction s j hrun hdec).trans hexec,
    ⟨hhalt.trans hrun, hir ▸ hw, hstatus⟩, hout⟩

namespace InProgress
variable {s : State} {i : Instr} {st : Status} {row : Signals} (h : InProgress i st s) (hst : st ≠ .t0)
  (hrow : table st i = some row)
include h hst hrow

/-- An instruction's own tick commits its row and leaves IR; `run` is not read. -/
theorem step_of_row :
    ∃ t, step s = .next t ∧ InProgress i (nextStatus st true row.done) t ∧ t.output = some row.done := by
  obtain ⟨hrun, hdec, rfl⟩ := h
  have hir : row.irIn = false := Bool.eq_false_iff.mpr fun hin => hst ((rowShape_of_table hrow).irIn_iff.mp hin)
  refine ⟨_, Machine.step_of_row hrun hdec hrow, ⟨hrun, ?_, nextStatus_of_ne_t0 hst _ _ _⟩, rfl⟩
  rw [commit_ir, hir, latch_false, hdec]

theorem retiresAfter_one (hdone : row.done = true) : RetiresAfter 1 s := by
  obtain ⟨t, hstep, ⟨hrun, -, hnext⟩, hout⟩ := h.step_of_row hst hrow
  rw [hdone] at hnext hout
  have hback : nextStatus st true true = .t0 := by
    cases st with
    | t0 => exact absurd rfl hst
    | t1 | t2 | t3 => rfl
  exact .one hstep (hnext.trans hback) hrun hout

theorem retiresAfter_succ {n : Nat} (hdone : row.done = false)
    (hrest : ∀ t, InProgress i (nextStatus st true false) t → RetiresAfter (n + 1) t) : RetiresAfter (n + 2) s := by
  obtain ⟨t, hstep, ht, hout⟩ := h.step_of_row hst hrow
  rw [hdone] at ht hout
  have haway : nextStatus st true false ≠ .t0 := by cases st <;> decide
  exact .succ hstep (ht.status_eq ▸ haway) hout (hrest t ht)

end InProgress

/-- A move has one tick of its own, an Add or Sub three. -/
theorem InProgress.retiresAfter_of_t1 {s : State} {i : Instr} (h : InProgress i .t1 s) :
    RetiresAfter (i.latency - 1) s := by
  cases i with
  | mv | mvi => exact h.retiresAfter_one (by decide) rfl rfl
  | add | sub =>
    exact h.retiresAfter_succ (by decide) rfl rfl fun t ht => ht.retiresAfter_succ (by decide) rfl rfl
      fun u hu => hu.retiresAfter_one (by decide) rfl rfl

/-- Settles O38: after the fetch tick the instruction's own ticks retire it. -/
theorem instructionRetiresExactlyOnce : Obligations.InstructionRetiresExactlyOnce := by
  intro s w i hready hin hw
  obtain ⟨t, hstep, hprogress, hout⟩ := hready.step_of_fetch hin hw
  have hown := hprogress.retiresAfter_of_t1
  have haway : t.status ≠ .t0 := by simp [hprogress.status_eq]
  obtain ⟨hback, hbefore, hdone⟩ : RetiresAfter i.latency s := by
    cases i with
    | mv | mvi | add | sub => exact .succ hstep haway hout hown
  exact ⟨hback, hbefore, hdone⟩

end Sys2Proof

/-! The moves: the tick that copies the bus to one register and retires, and an instruction whose only tick of its own
is such a one, from its fetch tick on (41_move.md R150 to R155). -/

namespace Sys2Proof.Machine

/-- The row of a move at T1, and of an Add's or Sub's write-back at T3: the bus goes to R[rx] and `done` is 1
(40_tick_and_control.md R112). -/
def copyRow (sel : BusSel) (rx : RegId) : Signals := { (Signals.onBus sel).latching rx with done := true }

theorem table_t1_mv (rx ry : RegId) : table .t1 (.mv rx ry) = some (copyRow (.reg ry) rx) := rfl

theorem table_t1_mvi (rx : RegId) : table .t1 (.mvi rx) = some (copyRow .din rx) := rfl

@[simp] theorem rIn_copyRow (sel : BusSel) (rx k : RegId) : (copyRow sel rx).rIn k = decide (rx = k) :=
  Signals.rIn_latching (Signals.onBus sel) rx k

theorem nextStatus_retiring {st : Status} (hst : st ≠ .t0) (run : Bool) : nextStatus st run true = .t0 := by
  cases st with
  | t0 => exact absurd rfl hst
  | t1 | t2 | t3 => rfl

/-- The tick of a copying row, with its frame. -/
theorem exec_of_copyRow {s : State} {i : Instr} {sel : BusSel} {rx : RegId} (hst : s.status ≠ .t0)
    (hrow : table s.status i = some (copyRow sel rx)) :
    ∃ t, exec i s = .next t ∧ t.reg rx = busWord (Config.dontcareBus s.tick) sel s ∧
      (∀ k, k ≠ rx → t.reg k = s.reg k) ∧ t.a = s.a ∧ t.g = s.g ∧ t.ir = s.ir ∧ t.status = .t0 ∧
      t.output = some true ∧ OneTickOn s t := by
  refine ⟨_, exec_of_row hrow, ?_, fun k hk => ?_, rfl, rfl, rfl, nextStatus_retiring hst _, rfl, rfl, rfl, rfl⟩
  · rw [commit_reg, rIn_copyRow, decide_eq_true rfl, latch_true]
    rfl
  · rw [commit_reg, rIn_copyRow, decide_eq_false hk.symm, latch_false]

/-- Settles O11: Mv's T1 row copies R[ry]. -/
theorem mvTickCopiesTheRegister : Obligations.MvTickCopiesTheRegister := fun rx ry s hst =>
  exec_of_copyRow (sel := .reg ry) (by simp [hst]) (hst ▸ table_t1_mv rx ry)

/-- Settles O12: Mvi's T1 row copies `din`. -/
theorem mviTickLoadsTheInput : Obligations.MviTickLoadsTheInput := fun rx s hst =>
  exec_of_copyRow (sel := .din) (by simp [hst]) (hst ▸ table_t1_mvi rx)

end Sys2Proof.Machine

namespace Sys2Proof

open Machine

section endState
variable {s t : State}

/-- A committed tick leaves the later inputs as they were settled. -/
theorem OneTickOn.inputAt (h : OneTickOn s t) (n : Nat) : t.inputAt n = s.inputAt (n + 1) := by
  obtain ⟨-, hpending, htick⟩ := h
  rw [← commit_inputAt fetchRow (settle fetchRow s)]
  simp only [State.inputAt, hpending, htick, commit_pending, commit_tick]

/-- What a ready block's fetch tick leaves unchanged, beside loading IR. -/
theorem Ready.frame_of_fetch (h : Ready s) (hstep : step s = .next t) :
    (∀ k, t.reg k = s.reg k) ∧ t.a = s.a ∧ t.g = s.g ∧ t.ir = (s.inputAt 0).din ∧ OneTickOn s t := by
  obtain ⟨hrun, hst, hdecodable⟩ := h
  obtain ⟨i, hdec⟩ := (decodable_iff s.ir).mp hdecodable
  obtain ⟨u, hexec, hreg, ha, hg, hir, -, -, hone⟩ := fetchTickOfEveryInstruction i s hst
  cases hstep.symm.trans ((stepRunsTheDecodedInstruction s i hrun hdec).trans hexec)
  exact ⟨hreg, ha, hg, hir, hone⟩

/-- The end state of an instruction that copies the bus at T1: `v` is what the bus carries in that tick, where the
general registers are still those before the instruction and the inputs are the second tick's. -/
theorem Ready.endState_of_copyRow {w v : Word} {i : Instr} {sel : BusSel} {rx : RegId} (hready : Ready s)
    (hin : s.inputAt 0 = ⟨true, w⟩) (hw : decode w = .ok i) (hrow : table .t1 i = some (copyRow sel rx))
    (hbus : ∀ u : State, (∀ k, u.reg k = s.reg k) → u.input = s.inputAt 1 → ∀ draw, busWord draw sel u = v) :
    ∃ t, ticks 2 s = .next t ∧ t.reg rx = v ∧ (∀ k, k ≠ rx → t.reg k = s.reg k) ∧ t.a = s.a ∧ t.g = s.g ∧
      t.ir = w ∧ t.status = .t0 ∧ t.halt = .running ∧ doneTrace 2 s = [false, true] := by
  obtain ⟨u, hfetch, ⟨hrun, hdec, hst⟩, hout⟩ := hready.step_of_fetch hin hw
  obtain ⟨hreg, ha, hg, hir, hone⟩ := hready.frame_of_fetch hfetch
  obtain ⟨t, hexec, hrx, hframe, ha', hg', hir', hst', hout', hhalt, -⟩ :=
    exec_of_copyRow (s := u) (by simp [hst]) (hst ▸ hrow)
  have hown : step u = .next t := (stepRunsTheDecodedInstruction u i hrun hdec).trans hexec
  refine ⟨t, ?_, hrx.trans (hbus u hreg (hone.inputAt 0) _), fun k hk => (hframe k hk).trans (hreg k),
    ha'.trans ha, hg'.trans hg, ?_, hst', hhalt.trans hrun, ?_⟩
  · rw [ticks_succ_of_step hfetch, ticks_succ_of_step hown]
    rfl
  · rw [hir', hir, hin]
  · rw [doneTrace_succ_of_step hfetch, doneTrace_succ_of_step hown, hout, hout']
    rfl

end endState

/-- Settles O34: the fetch tick leaves R[ry] for the T1 tick to copy. -/
theorem mvEndState : Obligations.MvEndState := fun _ _ rx ry hready hin hw =>
  hready.endState_of_copyRow hin hw (table_t1_mv rx ry) fun _ hreg _ _ => hreg ry

/-- Settles O35: the T1 tick's input is the second tick's. -/
theorem mviEndState : Obligations.MviEndState := fun _ _ rx hready hin hw =>
  hready.endState_of_copyRow hin hw (table_t1_mvi rx) fun _ _ hinput _ => congrArg Input.din hinput

end Sys2Proof

/-! Add and Sub: their three own ticks, which differ in the mode at T2 alone, and the whole instruction from its fetch
tick on (42_arith.md R170 to R175). -/

namespace Sys2Proof.Machine

/-- The row of an Add or Sub at T1: R[rx] goes to A (40_tick_and_control.md R112). -/
def operandRow (rx : RegId) : Signals := { Signals.onBus (.reg rx) with aIn := true }

/-- The row of an Add or Sub at T2: the ALU's output goes to G (40_tick_and_control.md R112). -/
def resultRow (ry : RegId) (mode : ModeSignal) : Signals := { Signals.onBus (.reg ry) with gIn := true, mode := mode }

/-- The mode signal that carries a bit (40_tick_and_control.md R110). -/
def ModeSignal.ofBit : Bool → ModeSignal
  | false => .add
  | true => .subtract

@[simp] theorem ModeSignal.resolve_ofBit (draw b : Bool) : (ModeSignal.ofBit b).resolve draw = b := by
  cases b <;> rfl

/-- `i` has the rows of an arithmetic instruction on `rx` and `ry`, with ALU mode `mode` at T2
(40_tick_and_control.md R112). -/
structure ArithRows (i : Instr) (rx ry : RegId) (mode : Bool) : Prop where
  operand : table .t1 i = some (operandRow rx)
  result : table .t2 i = some (resultRow ry (.ofBit mode))
  writeBack : table .t3 i = some (copyRow .g rx)

theorem arithRows_add (rx ry : RegId) : ArithRows (.add rx ry) rx ry false := ⟨rfl, rfl, rfl⟩

theorem arithRows_sub (rx ry : RegId) : ArithRows (.sub rx ry) rx ry true := ⟨rfl, rfl, rfl⟩

section arith
variable {s : State} {i : Instr} {rx ry : RegId} {mode : Bool}

/-- The tick that buffers the first operand, with its frame. -/
theorem exec_of_operandRow (hst : s.status = .t1) (hrow : table .t1 i = some (operandRow rx)) :
    ∃ t, exec i s = .next t ∧ t.a = s.reg rx ∧ t.g = s.g ∧ (∀ k, t.reg k = s.reg k) ∧ t.ir = s.ir ∧
      t.status = .t2 ∧ t.output = some false ∧ OneTickOn s t := by
  refine ⟨_, exec_of_row (hst ▸ hrow), rfl, rfl, fun _ => rfl, rfl, ?_, rfl, rfl, rfl, rfl⟩
  rw [commit_status, hst]
  rfl

/-- The tick that latches the ALU's output on A and R[ry], with its frame. -/
theorem exec_of_resultRow (hst : s.status = .t2) (hrow : table .t2 i = some (resultRow ry (.ofBit mode))) :
    ∃ t, exec i s = .next t ∧ t.a = s.a ∧ t.g = alu mode s.a (s.reg ry) ∧ (∀ k, t.reg k = s.reg k) ∧
      t.ir = s.ir ∧ t.status = .t3 ∧ t.output = some false ∧ OneTickOn s t := by
  refine ⟨_, exec_of_row (hst ▸ hrow), rfl, ?_, fun _ => rfl, rfl, ?_, rfl, rfl, rfl, rfl⟩
  · calc
      _ = (settle (resultRow ry (.ofBit mode)) s).aluOut := rfl
      _ = alu ((ModeSignal.ofBit mode).resolve _) s.a (s.reg ry) := settle_aluOut _ s
      _ = alu mode s.a (s.reg ry) := by rw [ModeSignal.resolve_ofBit]
  · rw [commit_status, hst]
    rfl

/-- The three own ticks of an arithmetic instruction. R[rx] is not written before the last of them, so the T2 tick
reads the R[ry] of before the instruction, for rx = ry too. `Result` is what is said of the ALU's output, in G after T2
and in R[rx] after T3. -/
theorem ArithRows.exec_own_ticks {Result : Word → Prop} (h : ArithRows i rx ry mode) (hst : s.status = .t1)
    (hres : Result (alu mode (s.reg rx) (s.reg ry))) :
    ∃ t u v, exec i s = .next t ∧ exec i t = .next u ∧ exec i u = .next v ∧
      (t.a = s.reg rx ∧ t.g = s.g ∧ (∀ k, t.reg k = s.reg k) ∧ t.ir = s.ir ∧ t.status = .t2 ∧
        t.output = some false ∧ OneTickOn s t) ∧
      (u.a = s.reg rx ∧ Result u.g ∧ (∀ k, u.reg k = s.reg k) ∧ u.ir = s.ir ∧ u.status = .t3 ∧
        u.output = some false ∧ OneTickOn t u) ∧
      (v.a = s.reg rx ∧ v.g = u.g ∧ Result (v.reg rx) ∧ (∀ k, k ≠ rx → v.reg k = s.reg k) ∧ v.ir = s.ir ∧
        v.status = .t0 ∧ v.output = some true ∧ OneTickOn u v) := by
  obtain ⟨t, ht, hta, htg, htreg, htir, htst, htout, htone⟩ := exec_of_operandRow hst h.operand
  obtain ⟨u, hu, hua, hug, hureg, huir, hust, huout, huone⟩ := exec_of_resultRow htst h.result
  obtain ⟨v, hv, hvrx, hvreg, hva, hvg, hvir, hvst, hvout, hvone⟩ :=
    exec_of_copyRow (s := u) (by simp [hust]) (hust ▸ h.writeBack)
  have hreg : ∀ k, u.reg k = s.reg k := fun k => (hureg k).trans (htreg k)
  have ha : u.a = s.reg rx := hua.trans hta
  have hir : u.ir = s.ir := huir.trans htir
  have hg : Result u.g := by rwa [hug, hta, htreg]
  have hbus : v.reg rx = u.g := hvrx
  exact ⟨t, u, v, ht, hu, hv, ⟨hta, htg, htreg, htir, htst, htout, htone⟩,
    ⟨ha, hg, hreg, hir, hust, huout, huone⟩,
    ⟨hva.trans ha, hvg, hbus ▸ hg, fun k hk => (hvreg k hk).trans (hreg k), hvir.trans hir, hvst, hvout, hvone⟩⟩

end arith

/-- Settles O13: mode 0 at T2 is the sum modulo 256. -/
theorem addTicksComputeTheSum : Obligations.AddTicksComputeTheSum := by
  intro rx ry s hst
  obtain ⟨hsum, -⟩ := aluComputesModulo256 (s.reg rx) (s.reg ry)
  exact (arithRows_add rx ry).exec_own_ticks (Result := fun r => r.toNat = _) hst hsum

/-- Settles O14: mode 1 at T2 is the difference modulo 256, of A less the bus. -/
theorem subTicksComputeTheDifference : Obligations.SubTicksComputeTheDifference := by
  intro rx ry s hst
  obtain ⟨-, hdiff⟩ := aluComputesModulo256 (s.reg rx) (s.reg ry)
  exact (arithRows_sub rx ry).exec_own_ticks (Result := fun r => (r.toNat : Int) = _) hst hdiff

/-- Settles O15: the sum of a word with itself, and its difference from itself. -/
theorem arithmeticOnOneRegister : Obligations.ArithmeticOnOneRegister := by
  refine fun k s hst => ⟨?_, ?_⟩
  · obtain ⟨t, u, v, ht, hu, hv, -, ⟨-, hug, -⟩, -, hvg, hvk, -⟩ := addTicksComputeTheSum k k s hst
    exact ⟨t, u, v, ht, hu, hv, by rw [hvk, two_mul], hvg.trans (BitVec.eq_of_toNat_eq (hug.trans hvk.symm))⟩
  · have hself : alu true (s.reg k) (s.reg k) = 0 := BitVec.sub_self (s.reg k)
    obtain ⟨t, u, v, ht, hu, hv, -, ⟨-, hug, -⟩, -, hvg, hvk, -⟩ :=
      (arithRows_sub k k).exec_own_ticks (Result := (· = 0)) hst hself
    exact ⟨t, u, v, ht, hu, hv, hvk, hvg.trans hug⟩

end Sys2Proof.Machine

namespace Sys2Proof

open Machine

/-- The end state of an arithmetic instruction: after the fetch tick, which leaves the general registers, its own three
ticks run. `Result` is what is said of the ALU's output. -/
theorem Ready.endState_of_arithRows {s : State} {w : Word} {i : Instr} {rx ry : RegId} {mode : Bool}
    {Result : Word → Prop} (hready : Ready s) (hin : s.inputAt 0 = ⟨true, w⟩) (hw : decode w = .ok i)
    (hrows : ArithRows i rx ry mode) (hres : Result (alu mode (s.reg rx) (s.reg ry))) :
    ∃ t, ticks 4 s = .next t ∧ Result (t.reg rx) ∧ t.a = s.reg rx ∧ Result t.g ∧
      (∀ k, k ≠ rx → t.reg k = s.reg k) ∧ t.ir = w ∧ t.status = .t0 ∧ t.halt = .running ∧
      doneTrace 4 s = [false, false, false, true] := by
  obtain ⟨f, hfetch, ⟨hrun, hdec, hst⟩, hout⟩ := hready.step_of_fetch hin hw
  obtain ⟨hreg, -, -, hir, -⟩ := hready.frame_of_fetch hfetch
  rw [← hreg rx, ← hreg ry] at hres
  obtain ⟨t, u, v, ht, hu, hv, ⟨-, -, -, htir, -, htout, hthalt, -⟩, ⟨-, hug, -, huir, -, huout, huhalt, -⟩,
    hva, hvg, hvrx, hvreg, hvir, hvst, hvout, hvhalt, -⟩ := hrows.exec_own_ticks hst hres
  have hstep₁ : step f = .next t := (stepRunsTheDecodedInstruction f i hrun hdec).trans ht
  have hstep₂ : step t = .next u :=
    (stepRunsTheDecodedInstruction t i (hthalt.trans hrun) (htir ▸ hdec)).trans hu
  have hstep₃ : step u = .next v :=
    (stepRunsTheDecodedInstruction u i (huhalt.trans (hthalt.trans hrun)) (huir ▸ hdec)).trans hv
  refine ⟨v, ?_, hvrx, hva.trans (hreg rx), hvg ▸ hug, fun k hk => (hvreg k hk).trans (hreg k), ?_, hvst,
    hvhalt.trans (huhalt.trans (hthalt.trans hrun)), ?_⟩
  · rw [ticks_succ_of_step hfetch, ticks_succ_of_step hstep₁, ticks_succ_of_step hstep₂,
      ticks_succ_of_step hstep₃]
    rfl
  · rw [hvir, hir, hin]
  · rw [doneTrace_succ_of_step hfetch, doneTrace_succ_of_step hstep₁, doneTrace_succ_of_step hstep₂,
      doneTrace_succ_of_step hstep₃, hout, htout, huout, hvout]
    rfl

/-- Settles O36: the sum is of the registers before the instruction. -/
theorem addEndState : Obligations.AddEndState := by
  intro s w rx ry hready hin hw
  obtain ⟨hsum, -⟩ := aluComputesModulo256 (s.reg rx) (s.reg ry)
  exact hready.endState_of_arithRows (Result := fun r => r.toNat = _) hin hw (arithRows_add rx ry) hsum

/-- Settles O37: as O36, with R[rx] the minuend. -/
theorem subEndState : Obligations.SubEndState := by
  intro s w rx ry hready hin hw
  obtain ⟨-, hdiff⟩ := aluComputesModulo256 (s.reg rx) (s.reg ry)
  exact hready.endState_of_arithRows (Result := fun r => (r.toNat : Int) = _) hin hw (arithRows_sub rx ry) hdiff

end Sys2Proof

/-! When a block halts and when it goes on: the halting tick, the environment's duty, and the undecodable word that
breaks it (60_exceptions.md R200 to R203, R206; 70_reset_and_hazards.md R234, R236). -/

namespace Sys2Proof

open Machine

/-- In a coherent state a running block whose IR decodes takes its tick and does not halt. -/
theorem Coherent.step_of_decodable {s : State} (h : Coherent s) (hrun : s.halt = .running)
    (hdecodable : decodable s.ir = true) : ∃ t, step s = .next t ∧ t.halt = .running := by
  obtain ⟨i, hdec⟩ := (decodable_iff s.ir).mp hdecodable
  obtain ⟨row, hrow⟩ := Option.ne_none_iff_exists'.mp (h.table_ne_none hdec)
  exact ⟨_, step_of_row hrun hdec hrow, hrun⟩

/-- Settles O31: the new IR is `din` at T0, which the duty makes decodable, and the old IR elsewhere. -/
theorem dutyKeepsTheBlockRunning : Obligations.DutyKeepsTheBlockRunning := by
  intro s hinv hrun hdecodable hduty
  have hcoh : Coherent s := hinv.1
  obtain ⟨t, hstep, ht⟩ := hcoh.step_of_decodable hrun hdecodable
  obtain ⟨hloads, hkeeps, -⟩ := instructionRegisterLoadsOnlyAtT0 s t hstep
  refine ⟨t, hstep, invariantKeptByEveryStep s t hinv hstep, ht, ?_⟩
  by_cases hst : s.status = .t0
  · rw [hloads ht hst]
    exact hduty hst
  · rwa [hkeeps ht hst]

/-- Settles O24: of a step's outcomes the two halts remain, at the decode and at a pair without a row; no third one
comes from the one-hot check. -/
theorem haltingTickCommitsNothing : Obligations.HaltingTickCommitsNothing := by
  intro s t h ht
  obtain ⟨hrun, ⟨i, row, -, -, rfl⟩ | ⟨e, hdec, rfl⟩ | ⟨i, hdec, hrow, rfl⟩⟩ := step_cases h
  · exact absurd hrun ht
  · exact ⟨rfl, rfl, .inl ⟨(decodable_eq_false_iff s.ir).mpr ⟨e, hdec⟩, rfl⟩⟩
  · obtain ⟨hmove, hst⟩ := (table_eq_none_iff s.status i).mp hrow
    exact ⟨rfl, rfl, .inr ⟨i, hdec, hmove, hst, rfl⟩⟩

/-- A ready block's step commits the fetch row, whatever the inputs. -/
theorem Ready.step_eq_fetch {s : State} (h : Ready s) :
    step s = .next (commit fetchRow (settle fetchRow s) s) := by
  obtain ⟨hrun, hst, hdecodable⟩ := h
  obtain ⟨i, hdec⟩ := (decodable_iff s.ir).mp hdecodable
  exact step_of_row hrun hdec (hst ▸ table_t0 i)

/-- Settles O32: the fetch tick decodes the old IR and latches the new word, which the next tick decodes in whichever
Status it is. -/
theorem undecodableFetchHaltsOneTickLater : Obligations.UndecodableFetchHaltsOneTickLater := by
  intro s hready hundec
  have hfetch := hready.step_eq_fetch
  obtain ⟨hrun, hst, -⟩ := hready
  have hhalts := undecodableWordHalts (commit fetchRow (settle fetchRow s) s) hrun hundec
  refine ⟨_, _, hfetch, hrun, rfl, ?_, hhalts, rfl, rfl, rfl⟩
  rw [commit_status, hst]
  rfl

end Sys2Proof

/-! Instructions issued back to back: an instruction uses up exactly its own inputs and leaves the block ready for the
next one (70_reset_and_hazards.md R239, R240, R242). -/

namespace Sys2Proof

open Machine

section ticks
variable {s t : State}

/-- Every tick spends one input, a halting one too. -/
theorem step_pending (h : step s = .next t) : t.pending = s.pending.tail := by
  obtain ⟨_, _, _, _, rfl, _⟩ | ⟨_, rfl, _⟩ := step_committed_or_halted h <;> rfl

theorem ticks_pending {n : Nat} (h : ticks n s = .next t) : t.pending = s.pending.drop n := by
  induction n generalizing s with
  | zero =>
    cases h
    rfl
  | succ n ih =>
    obtain ⟨u, hu, htail⟩ := ticks_succ_eq_next_iff.mp h
    rw [ih htail, step_pending hu, List.drop_tail]

/-- A run may be cut after any of its ticks, and so may the `done` outputs it emits. -/
theorem ticks_add {m : Nat} (h : ticks m s = .next t) (n : Nat) :
    ticks (m + n) s = ticks n t ∧ doneTrace (m + n) s = doneTrace m s ++ doneTrace n t := by
  induction m generalizing s with
  | zero =>
    cases h
    rw [Nat.zero_add]
    exact ⟨rfl, rfl⟩
  | succ m ih =>
    obtain ⟨u, hu, htail⟩ := ticks_succ_eq_next_iff.mp h
    obtain ⟨hticks, htrace⟩ := ih htail
    rw [Nat.add_right_comm, ticks_succ_of_step hu, doneTrace_succ_of_step hu, doneTrace_succ_of_step hu, htrace,
      List.append_assoc]
    exact ⟨hticks, rfl⟩

end ticks

/-- A line's inputs are as many as its instruction takes ticks. -/
theorem AsmLine.length_inputs (l : AsmLine) (filler : Word) : (l.inputs filler).length = l.instr.latency := by
  obtain ⟨i, data⟩ := l
  cases i <;> rfl

/-- An instruction leaves its word in IR, in a running block at T0. -/
theorem Ready.ir_after_latency {s : State} {w : Word} {i : Instr} (hready : Ready s)
    (hin : s.inputAt 0 = ⟨true, w⟩) (hw : decode w = .ok i) :
    ∃ t, ticks i.latency s = .next t ∧ t.ir = w ∧ t.status = .t0 ∧ t.halt = .running := by
  cases i with
  | mv rx ry =>
    obtain ⟨t, hticks, -, -, -, -, hir, hst, hrun, -⟩ := mvEndState s w rx ry hready hin hw
    exact ⟨t, hticks, hir, hst, hrun⟩
  | mvi rx =>
    obtain ⟨t, hticks, -, -, -, -, hir, hst, hrun, -⟩ := mviEndState s w rx hready hin hw
    exact ⟨t, hticks, hir, hst, hrun⟩
  | add rx ry =>
    obtain ⟨t, hticks, -, -, -, -, hir, hst, hrun, -⟩ := addEndState s w rx ry hready hin hw
    exact ⟨t, hticks, hir, hst, hrun⟩
  | sub rx ry =>
    obtain ⟨t, hticks, -, -, -, -, hir, hst, hrun, -⟩ := subEndState s w rx ry hready hin hw
    exact ⟨t, hticks, hir, hst, hrun⟩

/-- The `done` outputs of an instruction, its fetch tick counted (40_tick_and_control.md R123). -/
def Instr.doneOutputs (i : Instr) : List Bool := List.replicate (i.latency - 1) false ++ [true]

theorem Instr.length_doneOutputs (i : Instr) : i.doneOutputs.length = i.latency := by
  cases i <;> rfl

theorem Instr.count_doneOutputs (i : Instr) : i.doneOutputs.count true = 1 := by
  cases i <;> rfl

/-- A ready block runs the line that its inputs begin with, uses up that line's inputs and is ready again. -/
theorem Ready.run_line {s : State} {l : AsmLine} {filler : Word} {rest : List Input} (hready : Ready s)
    (hpending : s.pending = l.inputs filler ++ rest) :
    ∃ t, ticks l.instr.latency s = .next t ∧ Ready t ∧ t.pending = rest ∧
      doneTrace l.instr.latency s = l.instr.doneOutputs := by
  have hin : s.inputAt 0 = ⟨true, encode l.instr⟩ := by
    rw [State.inputAt, hpending]
    rfl
  obtain ⟨-, hw⟩ := decodeEncodeUnderEveryOpcodeAssignment
  obtain ⟨-, -, hdone⟩ := instructionRetiresExactlyOnce s _ _ hready hin (hw l.instr)
  obtain ⟨t, hticks, hir, hst, hrun⟩ := hready.ir_after_latency hin (hw l.instr)
  have hdecodable : decodable t.ir = true := (decodable_iff t.ir).mpr ⟨l.instr, hir ▸ hw l.instr⟩
  refine ⟨t, hticks, ⟨hrun, hst, hdecodable⟩, ?_, hdone⟩
  rw [ticks_pending hticks, hpending, List.drop_left' (l.length_inputs filler)]

/-- The `done` outputs of a program issued back to back. -/
def programDoneOutputs (prog : List (AsmLine × Word)) : List Bool :=
  prog.flatMap fun p => p.1.instr.doneOutputs

theorem programDoneOutputs_cons (p : AsmLine × Word) (prog : List (AsmLine × Word)) :
    programDoneOutputs (p :: prog) = p.1.instr.doneOutputs ++ programDoneOutputs prog :=
  List.flatMap_cons

/-- A move emits 2 outputs, an arithmetic instruction 4. -/
theorem length_programDoneOutputs (prog : List (AsmLine × Word)) :
    (programDoneOutputs prog).length =
      2 * prog.countP (fun p => p.1.instr.isMove) + 4 * prog.countP (fun p => !p.1.instr.isMove) := by
  induction prog with
  | nil => rfl
  | cons p prog ih =>
    have hlatency : p.1.instr.latency = if p.1.instr.isMove then 2 else 4 := by
      cases p.1.instr <;> rfl
    rw [programDoneOutputs_cons, List.length_append, Instr.length_doneOutputs, ih, hlatency]
    cases hmove : p.1.instr.isMove <;> simp [hmove] <;> omega

theorem count_programDoneOutputs (prog : List (AsmLine × Word)) :
    (programDoneOutputs prog).count true = prog.length := by
  induction prog with
  | nil => rfl
  | cons p prog ih =>
    rw [programDoneOutputs_cons, List.count_append, Instr.count_doneOutputs, ih, List.length_cons, Nat.add_comm]

theorem getLast?_programDoneOutputs {prog : List (AsmLine × Word)} (h : prog ≠ []) :
    (programDoneOutputs prog).getLast? = some true := by
  rw [← List.dropLast_append_getLast h, programDoneOutputs, List.flatMap_append, List.flatMap_singleton,
    Instr.doneOutputs, ← List.append_assoc, List.getLast?_concat]

/-- A ready block runs a program issued back to back, one line after the other. -/
theorem Ready.run_program {s : State} {prog : List (AsmLine × Word)} {rest : List Input} (hready : Ready s)
    (hpending : s.pending = programInputs prog ++ rest) :
    ∃ t, ticks (programDoneOutputs prog).length s = .next t ∧ Ready t ∧ t.pending = rest ∧
      doneTrace (programDoneOutputs prog).length s = programDoneOutputs prog := by
  induction prog generalizing s with
  | nil => exact ⟨s, rfl, hready, hpending, rfl⟩
  | cons p prog ih =>
    rw [programInputs, List.flatMap_cons, List.append_assoc] at hpending
    obtain ⟨u, hline, hu, hupending, hlineDone⟩ := hready.run_line hpending
    obtain ⟨t, hprog, ht, htpending, hprogDone⟩ := ih hu hupending
    obtain ⟨hticks, htrace⟩ := ticks_add hline (programDoneOutputs prog).length
    rw [programDoneOutputs_cons, List.length_append, Instr.length_doneOutputs, hticks, htrace, hlineDone, hprogDone]
    exact ⟨t, hprog, ht, htpending, rfl⟩

/-- Settles O39: the program's `done` outputs are 2m + 4n in number, with one 1 for each line and a 1 at the end. -/
theorem backToBackThroughput : Obligations.BackToBackThroughput := by
  intro prog rest s hready hpending m n
  obtain ⟨t, hticks, ht, htpending, htrace⟩ := hready.run_program hpending
  have hlength : (programDoneOutputs prog).length = 2 * m + 4 * n := length_programDoneOutputs prog
  rw [← hlength, htrace]
  exact ⟨⟨t, hticks, ht, htpending⟩, count_programDoneOutputs prog, getLast?_programDoneOutputs⟩

end Sys2Proof
